-- ==== Sys2Proof/Word.lean ====
section
/-! DEFINITION. The plain number types of the Pelanto PD-4160 (00_scope.md, section 2): octets, node numbers,
line times, Body Ids, dispatch tags, and the indexes of stations, positions, slots and mirror channels. -/

namespace Sys2Proof

/-- One octet of a frame, a telegram or the flash image. -/
abbrev Octet := BitVec 8

/-- A 16-bit node number (00_scope.md, section 2: 0 and 65535 are not valid). -/
abbrev Node := BitVec 16

/-- A raw count of the part's 32-bit millisecond line time (00_scope.md, section 2), which wraps. -/
abbrev LineTime := BitVec 32

/-- The tracking number of a body (R2). -/
abbrev BodyId := BitVec 32

/-- A dispatch tag (R94); 0 means none. -/
abbrev Tag := BitVec 16

/-- A weld station, 0 to 3. -/
abbrev StationId := Fin 4

/-- A robot-gun position within a station, 0 to 7. -/
abbrev Position := Fin 8

/-- A global slot number, 0 to 31. -/
abbrev SlotId := Fin 32

/-- A Mirror Channel, 0 to 7 (R177). -/
abbrev ChannelId := Fin 8

end Sys2Proof
end

