-- ==== Sys2Proof/Machine/Octets.lean ====
section
/-! DEFINITION. Octet order: multi-octet fields are sent and stored most significant octet first (00_scope.md,
section 2, R189). Readers take fields from the front of a list of octets, writers make the octets of a field. -/

namespace Sys2Proof.Octets

/-- The first octet, and the rest. -/
def read1 : List Octet → Option (Octet × List Octet)
  | a :: rest => some (a, rest)
  | [] => none

/-- A 2-octet field, and the rest. -/
def read2 : List Octet → Option (BitVec 16 × List Octet)
  | a :: b :: rest => some (a ++ b, rest)
  | _ => none

/-- A 4-octet field, and the rest. -/
def read4 : List Octet → Option (BitVec 32 × List Octet)
  | a :: b :: c :: d :: rest => some (a ++ b ++ c ++ d, rest)
  | _ => none

/-- `n` 1-octet fields, and the rest. -/
def readMany1 : Nat → List Octet → Option (List Octet × List Octet)
  | 0, os => some ([], os)
  | n + 1, a :: rest => (readMany1 n rest).map fun r => (a :: r.1, r.2)
  | _ + 1, [] => none

/-- `n` 2-octet fields, and the rest. -/
def readMany2 : Nat → List Octet → Option (List (BitVec 16) × List Octet)
  | 0, os => some ([], os)
  | n + 1, a :: b :: rest => (readMany2 n rest).map fun r => ((a ++ b) :: r.1, r.2)
  | _ + 1, _ => none

/-- `n` pairs of 1-octet fields, and the rest. -/
def readPairs : Nat → List Octet → Option (List (Octet × Octet) × List Octet)
  | 0, os => some ([], os)
  | n + 1, a :: b :: rest => (readPairs n rest).map fun r => ((a, b) :: r.1, r.2)
  | _ + 1, _ => none

/-- The octets of a 16-bit field. -/
def be2 (v : BitVec 16) : List Octet := [v.extractLsb' 8 8, v.extractLsb' 0 8]

/-- The octets of a 32-bit field. -/
def be4 (v : BitVec 32) : List Octet :=
  [v.extractLsb' 24 8, v.extractLsb' 16 8, v.extractLsb' 8 8, v.extractLsb' 0 8]

/-- The octet of a number that fits one. -/
def nat1 (n : Nat) : List Octet := [BitVec.ofNat 8 n]

/-- The octets of a number that fits two. -/
def nat2 (n : Nat) : List Octet := be2 (BitVec.ofNat 16 n)

/-- The octets of a number that fits four. -/
def nat4 (n : Nat) : List Octet := be4 (BitVec.ofNat 32 n)

/-- A flag, mark or yes-or-no value (R192): 0 for clear or no, 1 for set or yes. -/
def flag1 (b : Bool) : List Octet := if b then [1] else [0]

/-- A list whose length varies: the count of its items in 1 octet, then the items (R192). -/
def counted {α : Type} (f : α → List Octet) (l : List α) : List Octet := nat1 l.length ++ l.flatMap f

/-- A line time that may be absent (R192): presence octet 0, or presence octet 1 and the 4 octets (log entry 15). -/
def optTime : Option LineTime → List Octet
  | none => [0]
  | some t => 1 :: be4 t

/-- A 1-octet field that may be absent, absent being the largest value of its width (R192). -/
def opt1 : Option Nat → List Octet
  | none => [255]
  | some n => nat1 n

/-- A 2-octet field that may be absent, absent being the largest value of its width (R191, R192). -/
def opt2 : Option Nat → List Octet
  | none => be2 65535
  | some n => nat2 n

/-- A 2-octet node number that may be absent. -/
def optNode : Option Node → List Octet
  | none => be2 65535
  | some n => be2 n

/-- An octet whose bits are given from bit 0 upward. -/
def octetOfBits (bits : List Bool) : Octet :=
  BitVec.ofNat 8 ((bits.zipIdx.map fun b => if b.1 then 2 ^ b.2 else 0).sum)

end Sys2Proof.Octets
end

