-- ==== Sys2Proof/Syntax.lean ====
section
/-! DEFINITION. The commands of the part: one constructor of `Instr` per row of spec/opcode_table.json, with the
operands its rule names. An operand keeps the width of the octets that carry it (R190, R192), so every value a
telegram can hold is a value of the operand. -/

namespace Sys2Proof

/-- The two Ethernet ports (R144). -/
inductive Port where
  | uplink
  | cell
  deriving DecidableEq, Repr

/-- An Ethernet frame, limited to what 00_scope.md, section 1.5 keeps of the framing. -/
structure Frame where
  dstAddr   : BitVec 48
  srcAddr   : BitVec 48
  etherType : BitVec 16
  payload   : List Octet
  deriving DecidableEq, Repr

/-- The commands of the part. -/
inductive Instr where
  /-- POWER_UP_RESET (R185). -/
  | powerUpReset
  /-- POWER_UP_LOAD_END (R49, R185); the operand says whether the flash answered the reads of the load (R183, order 1). -/
  | powerUpLoadEnd (flashAnswers : Bool)
  /-- LINK_UP (R144). -/
  | linkUp (port : Port)
  /-- LINK_DOWN (R144). -/
  | linkDown (port : Port)
  /-- FRAME_RECEIVE (R144, R146): the port of arrival, whether the frame check sequence is good, and the frame. -/
  | frameReceive (port : Port) (checkGood : Bool) (frame : Frame)
  /-- ANNOUNCE (R5, R190): the header's source node and the body's fields. -/
  | announce (source : Node) (bodyId : BodyId) (station origin : Octet) (style options : BitVec 16) (variant : Octet)
  /-- WITHDRAW (R21, R190). -/
  | withdraw (source : Node) (bodyId : BodyId) (station : Octet)
  /-- REQUEST (R156, R192): source node, request number, request code and parameters as received. -/
  | request (source : Node) (number : BitVec 16) (code : Octet) (params : List Octet)
  /-- READY (R106, R190). -/
  | ready (source : Node) (tag : Tag) (verdict reason program : Octet)
  /-- DONE (R112, R190). -/
  | done (source : Node) (tag : Tag) (spots quality dressed : Octet)
  /-- READY_TIMEOUT (R103) of a slot. -/
  | readyTimeout (slot : SlotId)
  /-- CYCLE_TIMEOUT (R104) of a slot. -/
  | cycleTimeout (slot : SlotId)
  /-- SELECT_TRANSMIT (R99). -/
  | selectTransmit
  /-- CANCEL_TRANSMIT (R100). -/
  | cancelTransmit
  /-- RELEASE_TRANSMIT (R20). -/
  | releaseTransmit
  /-- REPLY_TRANSMIT (R156). -/
  | replyTransmit
  /-- NOTICE_TRANSMIT (R174). -/
  | noticeTransmit
  /-- COPY_TRANSMIT (R153). -/
  | copyTransmit
  /-- FORWARD_TRANSMIT (R150) at the outgoing port. -/
  | forwardTransmit (port : Port)
  /-- COPY_BANK_COMPLETE (R42). -/
  | copyBankComplete
  /-- VALIDATION_END (R44). -/
  | validationEnd
  /-- STORE_IMAGE_END (R186): whether the flash confirmed every write. -/
  | storeImageEnd (confirmed : Bool)
  /-- LOAD_IMAGE_END (R187); the operand as in POWER_UP_LOAD_END. -/
  | loadImageEnd (flashAnswers : Bool)
  /-- UNDEFINED_REQUEST (R157): a request of this code whose code or form is not defined. -/
  | undefinedRequest (code : Octet)
  /-- READ_STATUS (R165). -/
  | readStatus
  /-- READ_BODY (R166). -/
  | readBody (station position : Octet)
  /-- READ_TABLE (R40). -/
  | readTable (bank table : Octet) (first count : BitVec 16)
  /-- READ_GUN (R80). -/
  | readGun (first count : Octet)
  /-- READ_COUNTERS (R167). -/
  | readCounters (clear : Octet)
  /-- READ_REFUSALS (R167). -/
  | readRefusals
  /-- WRITE_TABLE (R36); the records as the octets that follow the count. -/
  | writeTable (bank table : Octet) (first count : BitVec 16) (records : List Octet)
  /-- WRITE_BLOCK (R38); the cells as the octets that follow the form octet. -/
  | writeBlock (bank r1 r2 c1 c2 form : Octet) (cells : List Octet)
  /-- CLEAR_BANK (R39). -/
  | clearBank (bank : Octet)
  /-- COPY_BANK (R41). -/
  | copyBank
  /-- SWAP (R43). -/
  | swap
  /-- SET_STATION (R10). -/
  | setStation (station mode dry : Octet) (readyLimit : BitVec 16)
  /-- SET_FAULT_MODES (R124): pairs of kind and mode. -/
  | setFaultModes (station : Octet) (pairs : List (Octet × Octet))
  /-- SET_HOLD_SCOPE (R133). -/
  | setHoldScope (scope : Octet)
  /-- CLEAR_STATION (R135): option 0 RETRY, 1 SKIP, 2 ABORT. -/
  | clearStation (station option : Octet)
  /-- WITHDRAW_BODY (R21). -/
  | withdrawBody (bodyId : BodyId) (station : Octet)
  /-- SET_GUN (R76). -/
  | setGun (slot : Octet) (dressLimit hardLimit ceiling : BitVec 16)
  /-- SET_WEAR (R77). -/
  | setWear (slot : Octet) (wear : BitVec 16)
  /-- RESET_WEAR (R78). -/
  | resetWear (slot : Octet)
  /-- CLEAR_EVENTS (R172). -/
  | clearEvents (mask : BitVec 32)
  /-- SET_EVENT_ENABLE (R173). -/
  | setEventEnable (enables : BitVec 32)
  /-- SET_MIRROR (R177); the five fields after the option are read under ARM only, and a decoded DISARM has 0 in them. -/
  | setMirror (channel option trigger stationMask : Octet) (destination : Node) (countForm count : Octet)
  /-- CONFIGURE (R162): slot counts in station order, robot nodes in ascending global slot order, tracker 0 for none. -/
  | configure (protocolType : BitVec 16) (own controller tracker : Node) (stationCount : Octet)
      (slotCounts : List Octet) (robotNodes : List Node)
  /-- GO_LIVE (R163). -/
  | goLive
  /-- STORE_IMAGE (R186). -/
  | storeImage
  /-- LOAD_IMAGE (R187). -/
  | loadImage
  /-- RESTART (R168). -/
  | restart
  deriving DecidableEq, Repr

end Sys2Proof
end

