-- ==== Sys2Proof/Decode.lean ====
section
/-! DEFINITION. From octets to commands. The opcode table gives no row any bits, so no word spells a command
(`decodeTableWord`). The body of a REQUEST does spell one, by the codes and parameters of R192 (`decodeRequest`):
the Management Agent reads the request it executes through it (R157). -/

namespace Sys2Proof

open Octets

/-- The command that a word spells by the table's bits: the table gives no row any, so none. -/
def decodeTableWord (_nbits _w : Nat) : Option Instr := none

/-- The parameters of a request by its code (R192), or none where the code is undefined or a parameter is missing.
Octets past the parameters that a code defines are ignored (R192). -/
def requestOf (code : Octet) (params : List Octet) : Option Instr :=
  match code.toNat with
  | 0x01 => some .readStatus
  | 0x02 => do
    let (station, p) ← read1 params
    let (position, _) ← read1 p
    some (.readBody station position)
  | 0x03 => do
    let (bank, p) ← read1 params
    let (table, p) ← read1 p
    let (first, p) ← read2 p
    let (count, _) ← read2 p
    some (.readTable bank table first count)
  | 0x04 => do
    let (first, p) ← read1 params
    let (count, _) ← read1 p
    some (.readGun first count)
  | 0x05 => do
    let (clear, _) ← read1 params
    some (.readCounters clear)
  | 0x06 => some .readRefusals
  | 0x10 => do
    let (bank, p) ← read1 params
    let (table, p) ← read1 p
    let (first, p) ← read2 p
    let (count, p) ← read2 p
    some (.writeTable bank table first count p)
  | 0x11 => do
    let (bank, p) ← read1 params
    let (r1, p) ← read1 p
    let (r2, p) ← read1 p
    let (c1, p) ← read1 p
    let (c2, p) ← read1 p
    let (form, p) ← read1 p
    some (.writeBlock bank r1 r2 c1 c2 form p)
  | 0x12 => do
    let (bank, _) ← read1 params
    some (.clearBank bank)
  | 0x13 => some .copyBank
  | 0x14 => some .swap
  | 0x20 => do
    let (station, p) ← read1 params
    let (mode, p) ← read1 p
    let (dry, p) ← read1 p
    let (limit, _) ← read2 p
    some (.setStation station mode dry limit)
  | 0x21 => do
    let (station, p) ← read1 params
    let (count, p) ← read1 p
    let (pairs, _) ← readPairs count.toNat p
    some (.setFaultModes station pairs)
  | 0x22 => do
    let (scope, _) ← read1 params
    some (.setHoldScope scope)
  | 0x23 => do
    let (station, p) ← read1 params
    let (option, _) ← read1 p
    some (.clearStation station option)
  | 0x24 => do
    let (bodyId, p) ← read4 params
    let (station, _) ← read1 p
    some (.withdrawBody bodyId station)
  | 0x30 => do
    let (slot, p) ← read1 params
    let (dress, p) ← read2 p
    let (hard, p) ← read2 p
    let (ceiling, _) ← read2 p
    some (.setGun slot dress hard ceiling)
  | 0x31 => do
    let (slot, p) ← read1 params
    let (wear, _) ← read2 p
    some (.setWear slot wear)
  | 0x32 => do
    let (slot, _) ← read1 params
    some (.resetWear slot)
  | 0x40 => do
    let (mask, _) ← read4 params
    some (.clearEvents mask)
  | 0x41 => do
    let (enables, _) ← read4 params
    some (.setEventEnable enables)
  | 0x42 => do
    let (channel, p) ← read1 params
    let (option, p) ← read1 p
    if option = 1 then
      let (trigger, p) ← read1 p
      let (mask, p) ← read1 p
      let (destination, p) ← read2 p
      let (countForm, p) ← read1 p
      let (count, _) ← read1 p
      some (.setMirror channel option trigger mask destination countForm count)
    else some (.setMirror channel option 0 0 0 0 0)
  | 0x50 => do
    let (protocolType, p) ← read2 params
    let (own, p) ← read2 p
    let (controller, p) ← read2 p
    let (tracker, p) ← read2 p
    let (stationCount, p) ← read1 p
    let (slotCounts, p) ← readMany1 stationCount.toNat p
    let (robotNodes, _) ← readMany2 (slotCounts.map BitVec.toNat).sum p
    some (.configure protocolType own controller tracker stationCount slotCounts robotNodes)
  | 0x51 => some .goLive
  | 0x52 => some .storeImage
  | 0x53 => some .loadImage
  | 0x54 => some .restart
  | _ => none

/-- The command that executing a request carries out: the request its code and parameters spell, or, where the code
names no defined request or a parameter is missing, UNDEFINED_REQUEST (R157). -/
def decodeRequest (code : Octet) (params : List Octet) : Instr :=
  (requestOf code params).getD (.undefinedRequest code)

end Sys2Proof
end

