-- ==== Sys2Proof/Config.lean ====
section
/-! DEFINITION. What the spec fixes per part or leaves open, as opaque constants: no proof can see a value of
any of them, so a claim about the model holds whatever they are. Each names the log entry that declares it. -/

namespace Sys2Proof.Config

/-- How many units of a running long operation or power-up load are carried out in one millisecond tick
(R42, R182, R186: no rate is given). Free value, log entry 4. -/
opaque opPace : Nat → Nat

/-- Which of the 24 orders the four stations take when every station tests its head start condition (R12:
"in no order among themselves"). Free value, log entry 7. -/
opaque stationOrder : Nat → Fin 24

/-- The fixed station address of the Uplink port (R153 gives no value). Free constant, log entry 23. -/
opaque uplinkAddress : BitVec 48

/-- The fixed station address of the Cell port (R153 gives no value). Free constant, log entry 23. -/
opaque cellAddress : BitVec 48

/-- What an octet of the flash reads as after a write to it that the flash did not confirm (R186 is silent).
Free value, log entry 21. -/
opaque unconfirmedOctet : Nat → Octet

/-- What STORE IMAGE writes for a controller node that is not configured (R181 names a value for the tracker
node only). Free constant, log entry 21. -/
opaque unconfiguredController : Node

/-- Whether the adjustment octet is 1 where R181 allows both of its values, for the sum of the octets before it.
Free value, log entry 21. -/
opaque adjustmentOctet : Nat → Bool

/-- Whether an image whose hold scope octet is neither of R192's codes sets the scope SECTION (R183 does not
refuse it). Free value, log entry 22. -/
opaque undefinedHoldScope : Octet → Bool

/-- Whether R162's No Such Station comes ahead of R5's conditions at a part to which no configuration has been applied: R5
gives such an announcement the reason Source, R162 the reason No Such Station. Free constant, log entry 35. -/
opaque noStationFirst : Bool

end Sys2Proof.Config
end

