-- ==== Sys2Proof/Machine/State.lean ====
section
/-! DEFINITION. The state of the part, as plain data grouped by block (00_scope.md, section 1.3), its value after
power-up reset, and the reasons a step could stop. Where two of the spec's names share one piece of state, it is
stored once (log entry 9). -/

namespace Sys2Proof.Machine

/-! ## Named values -/

/-- Station states, in the order of R9. -/
inductive StationState where
  | offline | idle | dispatching | held | manual
  deriving DecidableEq, Repr

/-- Origin of a body (R2). -/
inductive Origin where
  | normal | rework
  deriving DecidableEq, Repr

/-- The two table banks (R25). -/
inductive BankId where
  | a | b
  deriving DecidableEq, Repr

/-- States of a Body Record in use (R1). -/
inductive RecordState where
  | queued | active | releasing
  deriving DecidableEq, Repr

/-- Outcomes of a body (R17). -/
inductive BodyOutcome where
  | clean | faulted | aborted
  deriving DecidableEq, Repr

/-- States of a slot entry (R96). -/
inductive SlotState where
  | waiting | selected | loaded | finished | faulted | cancelled
  deriving DecidableEq, Repr

/-- The eight slot fault kinds and the body fault kind, in the order of R122. -/
inductive FaultKind where
  | readyTimeout | readyRefused | cycleTimeout | shortCycle | spotShortfall | qualityReject | wearOverrun
  | expansionError | unknownStyle
  deriving DecidableEq, Repr

/-- Fault modes, in the order of R192. -/
inductive FaultMode where
  | hold | pass | warn | off
  deriving DecidableEq, Repr

/-- Kinds of an Expansion Error (R63). -/
inductive ExpansionErrorKind where
  | depth | length | missing
  deriving DecidableEq, Repr

/-- Hold scope (R133): STATION or SECTION. -/
inductive HoldScope where
  | station | wholeSection
  deriving DecidableEq, Repr

/-- Part state (R161). -/
inductive PartState where
  | commissioning | live
  deriving DecidableEq, Repr

/-- The six tables, in the order of Table 2-1. -/
inductive TableId where
  | styles | matrix | overlays | plans | schedules | curves
  deriving DecidableEq, Repr

/-- Reasons of the Refusal Log, in the order of R8. -/
inductive RefusalReason where
  | queueFull | duplicate | stationOffline | noSuchStation | noTables | notFound | source
  deriving DecidableEq, Repr

/-- The four long operations, in the order of R164. -/
inductive LongOpKind where
  | copyBank | swap | storeImage | loadImage
  deriving DecidableEq, Repr

/-- States of the bank that is not ACTIVE (R32). -/
inductive OtherBankState where
  | shadow | validating | draining
  deriving DecidableEq, Repr

/-- Result codes, in the order of R192. -/
inductive ResultCode where
  | done | doneClamped | accepted | busy | bankBusy | incomplete | badParameter | badRecord | wrongState
  | notPermitted | notFound
  deriving DecidableEq, Repr

/-- Outcomes of the Validation Report (R45). -/
inductive ReportOutcome where
  | none | passed | failed
  deriving DecidableEq, Repr

/-- Reasons of a validation failure, in the order of R45. -/
inductive ValidationReason where
  | rowRange | planRange | planMissing | scheduleMissing | curveMissing
  deriving DecidableEq, Repr

/-- Triggers of a Mirror Channel (R177). -/
inductive Trigger where
  | release | slotDone | slotFault
  deriving DecidableEq, Repr

/-- Activities of the Image Loader (R182). -/
inductive LoaderActivity where
  | idle | powerUpLoad | store | load
  deriving DecidableEq, Repr

/-- How far a load has come in the order of R183. -/
inductive LoaderPhase where
  | header | config | records | passed | failed
  deriving DecidableEq, Repr

/-! ## Tables (R25 to R31) -/

/-- A Style Directory entry (R26). -/
structure StyleEntry where
  code : BitVec 16
  row  : Nat
  deriving DecidableEq, Repr

/-- A Dispatch Matrix cell (R27). -/
structure MatrixCell where
  basePlan : Nat
  span     : Nat
  deriving DecidableEq, Repr

/-- Actions of an overlay (R28). -/
inductive OverlayAction where
  | substitute | append
  deriving DecidableEq, Repr

/-- An Overlay List entry (R28); row `none` is ANY. -/
structure OverlayEntry where
  optionBit : Nat
  row       : Option Nat
  slot      : Nat
  action    : OverlayAction
  plan      : Nat
  deriving DecidableEq, Repr

/-- A step of a plan (R29). -/
inductive PlanStep where
  | group (schedule spots : Nat)
  | call (plan : Nat)
  deriving DecidableEq, Repr

/-- A Plan Store entry (R29). -/
structure PlanEntry where
  program  : Nat
  cycleMin : Nat
  cycleMax : Nat
  steps    : List PlanStep
  deriving DecidableEq, Repr

/-- A Schedule Table entry (R30). -/
structure ScheduleEntry where
  base     : Nat
  weldTime : Nat
  curve    : Nat
  deriving DecidableEq, Repr

/-- One breakpoint of a stepper curve (R31): wear count and raise in per mille. -/
structure Breakpoint where
  wear  : Nat
  raise : Nat
  deriving DecidableEq, Repr

/-- One set of the six tables (R25). Each is a list of index and record, indexes strictly rising, empty entries
not listed; a Dispatch Matrix cell of base plan 0 and span 1 is empty and not listed. -/
structure Tables where
  styles    : List (Nat × StyleEntry)
  matrix    : List (Nat × MatrixCell)
  overlays  : List (Nat × OverlayEntry)
  plans     : List (Nat × PlanEntry)
  schedules : List (Nat × ScheduleEntry)
  curves    : List (Nat × List Breakpoint)
  deriving DecidableEq, Repr

/-- The Validation Report (R45). -/
structure ValidationReport where
  outcome    : ReportOutcome
  bank       : Option BankId
  table      : Option TableId
  index      : Option Nat
  detail     : Option Nat
  reason     : Option ValidationReason
  referenced : Option Nat
  endedAt    : Option LineTime
  deriving DecidableEq, Repr

/-- Table Banks. One bank is ACTIVE (`active`); `other` is the state of the other one, so that exactly one bank is
ACTIVE by construction (R32). `validated` is the mark of the ACTIVE bank (R33), `loadIncomplete` the mark of the
SHADOW bank (R34). -/
structure Banks where
  tablesA        : Tables
  tablesB        : Tables
  active         : BankId
  other          : OtherBankState
  validated      : Bool
  loadIncomplete : Bool
  report         : ValidationReport
  deriving DecidableEq, Repr

/-! ## Bodies (R1 to R3) -/

/-- One expanded weld group of a selection (R3). -/
structure Group where
  schedule : Nat
  spots    : Nat
  weldTime : Nat
  current  : Nat
  deriving DecidableEq, Repr

/-- A slot entry (R3). The fault set holds kind n of R191 at bit n. -/
structure SlotEntry where
  position        : Position
  effectivePlan   : Nat
  overlays        : List Nat
  program         : Option Nat
  groups          : List Group
  plannedSpots    : Option Nat
  expansionError  : Option ExpansionErrorKind
  clamp           : Bool
  dressRequested  : Bool
  wearUnconfirmed : Bool
  state           : SlotState
  faults          : BitVec 8
  held            : Bool
  warned          : Bool
  refusalReason   : Option Nat
  spotsWelded     : Option Nat
  tag             : Option Tag
  selectedAt      : Option LineTime
  readyAt         : Option LineTime
  deriving DecidableEq, Repr

/-- A Body Record in use (R2). The Unknown Style mark is the absence of a style row. -/
structure BodyRecord where
  bodyId      : BodyId
  station     : StationId
  style       : BitVec 16
  row         : Option Nat
  options     : BitVec 16
  variant     : Nat
  origin      : Origin
  bankTag     : BankId
  state       : RecordState
  announcedAt : LineTime
  startedAt   : Option LineTime
  releasedAt  : Option LineTime
  entries     : List SlotEntry
  bodyHeld    : Bool
  outcome     : Option BodyOutcome
  deriving DecidableEq, Repr

/-- The six counters of a station, in the order of R175. -/
structure StationCounters where
  releasedClean   : Nat
  releasedFaulted : Nat
  aborted         : Nat
  stale           : Nat
  late            : Nat
  duplicate       : Nat
  deriving DecidableEq, Repr

/-- A station: state and settings (R9, R11), the ready limit in force for the selections of its head, which is the one set before
the head started (R11, log entry 36), Station Queue front first (R7), the modes of the nine kinds in the order of R122 (R123),
and its counters (R175). -/
structure Station where
  state      : StationState
  dry        : Bool
  readyLimit : Nat
  headLimit  : Nat
  queue      : List BodyRecord
  modes      : Vector FaultMode 9
  counters   : StationCounters
  deriving DecidableEq, Repr

/-- An entry of the Refusal Log (R8). -/
structure RefusalEntry where
  bodyId  : BodyId
  station : Octet
  reason  : RefusalReason
  time    : LineTime
  deriving DecidableEq, Repr

/-- Body Tracker (R1 to R24) and the shape of the section (R162). -/
structure Tracker where
  stations     : Vector Station 4
  stationCount : Nat
  slotCounts   : Vector Nat 4
  refusalLog   : List RefusalEntry
  deriving DecidableEq, Repr

/-! ## Telegrams waiting to be sent -/

/-- What a telegram is built with (R152, R162): destination node, source node and Protocol Type. -/
structure Envelope where
  destination  : Node
  source       : Node
  protocolType : BitVec 16
  deriving DecidableEq, Repr

/-- The content of a SELECT (R97). -/
structure SelectContent where
  tag             : Tag
  bodyId          : BodyId
  program         : Nat
  dry             : Bool
  dressRequest    : Bool
  wearUnconfirmed : Bool
  groups          : List Group
  deriving DecidableEq, Repr

/-- What a telegram of the Cell own-telegram queue says (R98). -/
inductive CellBody where
  | select (content : SelectContent)
  | cancel (tag : Tag)
  deriving DecidableEq, Repr

/-- A telegram of the Cell own-telegram queue (R98, R151). -/
structure CellTelegram where
  slot     : SlotId
  envelope : Envelope
  body     : CellBody
  deriving DecidableEq, Repr

/-- The content of a COPY (R178). -/
inductive CopyContent where
  | release (record : BodyRecord)
  | slotDone (bodyId : BodyId) (entry : SlotEntry)
  | slotFault (bodyId : BodyId) (position : Position) (kind : FaultKind) (state : SlotState) (faults : BitVec 8)
  deriving DecidableEq, Repr

/-- A telegram of the Uplink own-telegram queue (R152). A waiting RELEASE carries its RELEASING record (R1). A
NOTICE takes its content and envelope when it is transmitted (R174). -/
inductive UplinkTelegram where
  | release (envelope : Envelope) (record : BodyRecord)
  | reply (envelope : Envelope) (number : BitVec 16) (code : Octet) (result : ResultCode) (summary : Octet)
      (data : List Octet)
  | notice
  | copy (envelope : Envelope) (channel : ChannelId) (station : StationId) (time : LineTime) (content : CopyContent)
  deriving DecidableEq, Repr

/-- Port Interface (R144, R150 to R153). The transmitter fields hold the frame each Egress Arbiter took last. -/
structure Ports where
  uplinkUp  : Bool
  cellUp    : Bool
  toCell    : List Frame
  toUplink  : List Frame
  cellOwn   : List CellTelegram
  uplinkOwn : List UplinkTelegram
  uplinkTx  : Option Frame
  cellTx    : Option Frame
  deriving DecidableEq, Repr

/-- Telegram Filter (R145). -/
structure Recognition where
  protocolType   : BitVec 16
  ownNode        : Node
  controllerNode : Option Node
  trackerNode    : Option Node
  robotNodes     : Vector (Option Node) 32
  replyNode      : Option Node
  deriving DecidableEq, Repr

/-! ## The remaining blocks -/

/-- A frame of the expansion stack (R51): the plan being expanded and the step that comes next in it. -/
structure ExpansionFrame where
  plan     : Nat
  nextStep : Nat
  deriving DecidableEq, Repr

/-- Resolver (R51): expansion stack and group buffer, both empty between resolutions. -/
structure Resolver where
  stack  : List ExpansionFrame
  buffer : List Group
  deriving DecidableEq, Repr

/-- A Gun Table entry (R73). -/
structure Gun where
  wear        : Nat
  wearUnknown : Bool
  dressDue    : Bool
  dressCount  : Nat
  capChanges  : Nat
  dressLimit  : Nat
  hardLimit   : Nat
  ceiling     : Nat
  deriving DecidableEq, Repr

/-- The tag state of a slot (R94). `owned` says that the tag owner is the slot entry at the slot's position in the
head of its station; timers hold their expiry time. -/
structure TagState where
  next       : Tag
  current    : Tag
  cancelled  : Tag
  owned      : Bool
  readyTimer : Option LineTime
  cycleTimer : Option LineTime
  deriving DecidableEq, Repr

/-- An entry of the Request Queue (R156). -/
structure RequestEntry where
  source   : Node
  number   : BitVec 16
  code     : Octet
  params   : List Octet
  answered : Bool
  deriving DecidableEq, Repr

/-- A running long operation (R164), and how many entries a COPY BANK has copied so far (R42). -/
structure LongOp where
  kind       : LongOpKind
  acceptedAt : LineTime
  copied     : Nat
  deriving DecidableEq, Repr

/-- Management Agent (R156, R161, R164). -/
structure Agent where
  requests  : List RequestEntry
  partState : PartState
  longOp    : Option LongOp
  deriving DecidableEq, Repr

/-- Event Unit (R170, R171, R175): flags and enables with index n at bit n, the pending-notice marker and the six
counters of the part. -/
structure Events where
  flags                : BitVec 29
  enables              : BitVec 29
  noticePending        : Bool
  guardDrops           : Nat
  frameErrors          : Nat
  forwardDropsToCell   : Nat
  forwardDropsToUplink : Nat
  requestDrops         : Nat
  refusals             : Nat
  deriving DecidableEq, Repr

/-- A Mirror Channel (R177); count `none` is CONTINUOUS. -/
structure Channel where
  trigger     : Trigger
  stationMask : BitVec 4
  destination : Option Node
  count       : Option Nat
  remaining   : Nat
  armed       : Bool
  copyLost    : Nat
  deriving DecidableEq, Repr

/-- The header of an image (R181). -/
structure ImageHeader where
  recordCounts  : Vector Nat 6
  configLength  : Nat
  payloadLength : Nat
  checksum      : BitVec 16
  deriving DecidableEq, Repr

/-- The shape values of a configuration: what CONFIGURE writes (R162). -/
structure Shape where
  protocolType : BitVec 16
  own          : Node
  controller   : Node
  tracker      : Option Node
  stationCount : Nat
  slotCounts   : List Nat
  robotNodes   : List Node
  deriving DecidableEq, Repr

/-- The limits of one gun as an image gives them (R181). -/
structure GunLimits where
  dressLimit : Nat
  hardLimit  : Nat
  ceiling    : Nat
  deriving DecidableEq, Repr

/-- The configuration part of an image (R181): shape, then ready limit and mode codes of each configured station,
hold scope code, and gun limits of each configured slot. -/
structure ImageConfig where
  shape     : Shape
  stations  : List (Nat × List Octet)
  holdScope : Octet
  guns      : List GunLimits
  deriving DecidableEq, Repr

/-- Image Loader (R182): activity, header, running sum and record counts as the rule names them; `phase`, `position`
(offset of the next octet read or written), `seen` (table and index of the records read), `config` (values read and
not yet applied) and `stored` (header octets before the checksum, then payload, of a store) are what R183 and R186
imply of a transfer in progress. -/
structure Loader where
  activity : LoaderActivity
  header   : Option ImageHeader
  sum      : BitVec 16
  counts   : Vector Nat 6
  phase    : LoaderPhase
  position : Nat
  seen     : List (TableId × Nat)
  config   : Option ImageConfig
  stored   : List Octet
  deriving DecidableEq, Repr

/-- The state of the part. `pending` is the block's command queue, front first; `free` counts the free values taken. -/
structure State where
  pending   : List Instr
  free      : Nat
  lineTime  : LineTime
  ports     : Ports
  filter    : Recognition
  tracker   : Tracker
  banks     : Banks
  resolver  : Resolver
  guns      : Vector Gun 32
  tags      : Vector TagState 32
  holdScope : HoldScope
  agent     : Agent
  events    : Events
  channels  : Vector Channel 8
  loader    : Loader
  flash     : List Octet
  deriving DecidableEq, Repr

/-- Reasons a step could stop with a fault. There is none: every command has an effect the spec gives, or finds no
occasion in the state and changes nothing (log entry 2). -/
inductive Fault where
  deriving DecidableEq, Repr

/-- Reasons a step could refuse a command. -/
inductive Refusal where
  /-- Raised by an arm of `exec` whose command has no meaning yet: safe, since nothing is claimed of it. No arm raises it. -/
  | notModelled (mnemonic : String)
  deriving DecidableEq, Repr

/-! ## Values after power-up reset (R185) -/

/-- A bank with every entry of its six tables empty (R49). -/
def Tables.empty : Tables := ⟨[], [], [], [], [], []⟩

/-- The default modes of R123, in the order of R122. -/
def defaultModes : Vector FaultMode 9 :=
  #v[.hold, .hold, .hold, .pass, .pass, .pass, .hold, .hold, .hold]

/-- Counters at 0 (R176). -/
def StationCounters.zero : StationCounters := ⟨0, 0, 0, 0, 0, 0⟩

/-- A station after power-up reset (R23, R143). DESIGN CHOICE (log entry 36): the ready limit in force for a head is that of R143
too; no SELECT reads it before a head start sets it. -/
def Station.reset : Station := ⟨.offline, false, 3000, 3000, [], defaultModes, .zero⟩

/-- A Gun Table entry after power-up reset, with the default limits (R74). -/
def Gun.reset : Gun := ⟨0, true, false, 0, 0, 2000, 3000, 1800⟩

/-- The tag state of a slot after power-up reset (R120). -/
def TagState.reset : TagState := ⟨1, 0, 0, false, none, none⟩

/-- A Mirror Channel after power-up reset (R180). -/
def Channel.reset : Channel := ⟨.release, 0, none, some 1, 0, false, 0⟩

/-- The Image Loader at the start of an activity: nothing read or written yet. -/
def Loader.start (activity : LoaderActivity) : Loader :=
  ⟨activity, none, 0, Vector.replicate 6 0, .header, 0, [], none, []⟩

/-- The Validation Report after power-up reset (R45, R49). -/
def ValidationReport.reset : ValidationReport := ⟨.none, none, none, none, none, none, none, none⟩

/-- The part right after power-up reset: line time 0, the power-up load begun, every block at its power-up values
(R185 and the rules its table names). Values the spec does not give: both links up (log entry 11), the flash erased
(log entry 12), the model's own `pending` and `free` (log entries 1 and 2). -/
def State.reset : State where
  pending   := []
  free      := 0
  lineTime  := 0
  ports     := ⟨true, true, [], [], [], [], none, none⟩
  filter    := ⟨0x8F5A, 65534, none, none, Vector.replicate 32 none, none⟩
  tracker   := ⟨Vector.replicate 4 Station.reset, 0, Vector.replicate 4 0, []⟩
  banks     := ⟨Tables.empty, Tables.empty, .a, .shadow, false, false, .reset⟩
  resolver  := ⟨[], []⟩
  guns      := Vector.replicate 32 Gun.reset
  tags      := Vector.replicate 32 TagState.reset
  holdScope := .station
  agent     := ⟨[], .commissioning, none⟩
  events    := ⟨0, 0, false, 0, 0, 0, 0, 0, 0⟩
  channels  := Vector.replicate 8 Channel.reset
  loader    := Loader.start .powerUpLoad
  flash     := []

end Sys2Proof.Machine
end

