-- ==== Sys2Proof/Machine/Ops.lean ====
section
/-! DEFINITION. The named operations over the state that every meaning is built from: one update per block, access to
stations, records, entries, guns, tag states and channels, saturating counts, line time, and the configuration of
stations and slots. Every register has its one reader and one writer here. -/

namespace Sys2Proof.Machine

/-! ## Updates of one block -/

/-- The state with its Port Interface replaced. -/
def State.setPorts (s : State) (p : Ports) : State := { s with ports := p }
/-- The state with its Telegram Filter settings replaced. -/
def State.setFilter (s : State) (f : Recognition) : State := { s with filter := f }
/-- The state with its Body Tracker replaced. -/
def State.setTracker (s : State) (t : Tracker) : State := { s with tracker := t }
/-- The state with its Table Banks replaced. -/
def State.setBanks (s : State) (x : Banks) : State := { s with banks := x }
/-- The state with its Resolver replaced. -/
def State.setResolver (s : State) (r : Resolver) : State := { s with resolver := r }
/-- The state with its Gun Table replaced. -/
def State.setGuns (s : State) (g : Vector Gun 32) : State := { s with guns := g }
/-- The state with its tag states replaced. -/
def State.setTags (s : State) (t : Vector TagState 32) : State := { s with tags := t }
/-- The state with its hold scope replaced. -/
def State.setScope (s : State) (h : HoldScope) : State := { s with holdScope := h }
/-- The state with its Management Agent replaced. -/
def State.setAgent (s : State) (x : Agent) : State := { s with agent := x }
/-- The state with its Event Unit replaced. -/
def State.setEvents (s : State) (e : Events) : State := { s with events := e }
/-- The state with its Mirror Channels replaced. -/
def State.setChannels (s : State) (c : Vector Channel 8) : State := { s with channels := c }
/-- The state with its Image Loader replaced. -/
def State.setLoader (s : State) (l : Loader) : State := { s with loader := l }
/-- The state with its flash contents replaced. -/
def State.setFlash (s : State) (f : List Octet) : State := { s with flash := f }
/-- The state with its free-value counter replaced. -/
def State.setFree (s : State) (n : Nat) : State := { s with free := n }
/-- The state with its line time replaced. -/
def State.setLineTime (s : State) (t : LineTime) : State := { s with lineTime := t }

/-! ## Counts and fixed-length maps -/

/-- A 16-bit counter raised by 1, saturating at 65535 (00_scope.md, section 2). -/
def bump (n : Nat) : Nat := if n < 65535 then n + 1 else n

/-- Every element of a fixed-length vector mapped. -/
def mapVector {α β : Type} {n : Nat} (f : α → β) (v : Vector α n) : Vector β n :=
  ⟨⟨v.toList.map f⟩, by simp⟩

/-- The vector whose element at each index is given by a function of the index. -/
def tabulate {α : Type} {n : Nat} (f : Fin n → α) : Vector α n := Vector.ofFn f

/-- The value brought into a range. -/
def clamp (lo hi n : Nat) : Nat := if n < lo then lo else if hi < n then hi else n

/-! ## Stations and slots -/

/-- The station a global slot belongs to (00_scope.md, section 2: slot = 8 × station + position). -/
def stationOf (g : SlotId) : StationId := ⟨g.val / 8, by omega⟩

/-- The position of a global slot within its station. -/
def positionOf (g : SlotId) : Position := ⟨g.val % 8, by omega⟩

/-- The global slot number of a position of a station. -/
def slotOf (st : StationId) (p : Position) : SlotId := ⟨8 * st.val + p.val, by omega⟩

/-- The four stations in ascending number. -/
def allStations : List StationId := [0, 1, 2, 3]

/-- The eight positions in ascending number. -/
def allPositions : List Position := [0, 1, 2, 3, 4, 5, 6, 7]

/-- The eight Mirror Channels in ascending number. -/
def allChannels : List ChannelId := [0, 1, 2, 3, 4, 5, 6, 7]

/-- The 32 global slots in ascending number. -/
def allSlots : List SlotId := allStations.flatMap fun st => allPositions.map (slotOf st)

/-- The station a station octet names, where it is a configured station (R5, R10). -/
def State.configuredStation? (s : State) (o : Octet) : Option StationId :=
  if h : o.toNat < 4 then
    if o.toNat < s.tracker.stationCount then some ⟨o.toNat, h⟩ else none
  else none

/-- A slot is configured when its position is below its station's slot count and its station is configured
(00_scope.md, section 2). -/
def State.slotConfigured (s : State) (g : SlotId) : Bool :=
  decide ((stationOf g).val < s.tracker.stationCount) &&
    decide ((positionOf g).val < s.tracker.slotCounts[stationOf g])

/-- A station. -/
def State.station (s : State) (st : StationId) : Station := s.tracker.stations[st]

/-- The state with one station replaced. -/
def State.setStation (s : State) (st : StationId) (x : Station) : State :=
  s.setTracker { s.tracker with stations := s.tracker.stations.set st x }

/-- The state with one station's state replaced. -/
def State.setStationState (s : State) (st : StationId) (x : StationState) : State :=
  s.setStation st { s.station st with state := x }

/-- A gun. -/
def State.gun (s : State) (g : SlotId) : Gun := s.guns[g]

/-- The state with one gun replaced. -/
def State.setGun (s : State) (g : SlotId) (x : Gun) : State := s.setGuns (s.guns.set g x)

/-- A slot's tag state. -/
def State.tagState (s : State) (g : SlotId) : TagState := s.tags[g]

/-- The state with one slot's tag state replaced. -/
def State.setTag (s : State) (g : SlotId) (x : TagState) : State := s.setTags (s.tags.set g x)

/-- The state with one Mirror Channel replaced. -/
def State.setChannel (s : State) (c : ChannelId) (x : Channel) : State := s.setChannels (s.channels.set c x)

/-! ## Fault modes (R123) -/

/-- The number of a fault kind (R192). -/
def FaultKind.number : FaultKind → Fin 9
  | .readyTimeout => 0
  | .readyRefused => 1
  | .cycleTimeout => 2
  | .shortCycle => 3
  | .spotShortfall => 4
  | .qualityReject => 5
  | .wearOverrun => 6
  | .expansionError => 7
  | .unknownStyle => 8

/-- Whether a kind allows a mode (R123). -/
def FaultKind.allows (k : FaultKind) (m : FaultMode) : Bool :=
  match k with
  | .readyRefused | .expansionError | .unknownStyle => m == .hold || m == .pass
  | .readyTimeout | .cycleTimeout | .shortCycle | .spotShortfall | .qualityReject | .wearOverrun => true

/-- The station's mode for a kind (R122). A stored mode that the kind does not allow, which no write can store (R123),
reads as the kind's default (log entry 27). -/
def State.mode (s : State) (st : StationId) (k : FaultKind) : FaultMode :=
  if k.allows (s.station st).modes[k.number] then (s.station st).modes[k.number] else defaultModes[k.number]

/-- A kind added to a fault set; the body fault kind has no bit. -/
def addFault (faults : BitVec 8) (k : FaultKind) : BitVec 8 := faults ||| (1#8 <<< k.number.val)

/-- Whether a fault set holds a slot fault kind (R191). -/
def hasFault (faults : BitVec 8) (k : FaultKind) : Bool := faults.getLsbD k.number.val

/-! ## Records and entries -/

/-- The entry at a position of a record. -/
def BodyRecord.entry? (r : BodyRecord) (p : Position) : Option SlotEntry := r.entries.find? fun e => e.position == p

/-- The record with the entry at a position changed. -/
def BodyRecord.modifyEntry (r : BodyRecord) (p : Position) (f : SlotEntry → SlotEntry) : BodyRecord :=
  { r with entries := r.entries.map fun e => if e.position = p then f e else e }

/-- Whether an entry is ended (R3). -/
def SlotEntry.ended (e : SlotEntry) : Bool := e.state == .finished || e.state == .faulted || e.state == .cancelled

/-- Whether a selection is outstanding at the robot for an entry (R102). -/
def SlotEntry.outstanding (e : SlotEntry) : Bool := e.state == .selected || e.state == .loaded

/-- The head of a station: the front record of its queue once started (R4). -/
def Station.head? (x : Station) : Option BodyRecord :=
  match x.queue with
  | r :: _ => if r.state = .active then some r else none
  | [] => none

/-- The station with its head changed, if it has one. -/
def Station.modifyHead (x : Station) (f : BodyRecord → BodyRecord) : Station :=
  match x.queue with
  | r :: rest => if r.state = .active then { x with queue := f r :: rest } else x
  | [] => x

/-- The head of a station of the part. -/
def State.head? (s : State) (st : StationId) : Option BodyRecord := (s.station st).head?

/-- The state with the head of a station changed. -/
def State.modifyHead (s : State) (st : StationId) (f : BodyRecord → BodyRecord) : State :=
  s.setStation st ((s.station st).modifyHead f)

/-- The entry of the head at a slot. -/
def State.entry? (s : State) (g : SlotId) : Option SlotEntry :=
  (s.head? (stationOf g)).bind fun r => r.entry? (positionOf g)

/-- The state with the head's entry at a slot changed. -/
def State.modifyEntry (s : State) (g : SlotId) (f : SlotEntry → SlotEntry) : State :=
  s.modifyHead (stationOf g) fun r => r.modifyEntry (positionOf g) f

/-- Whether any held mark stands on a record (R130). -/
def BodyRecord.anyHeld (r : BodyRecord) : Bool := r.bodyHeld || r.entries.any (·.held)

/-- The release condition of a head (R16), beside its being ACTIVE. -/
def BodyRecord.releasable (r : BodyRecord) : Bool := r.entries.all (·.ended) && !r.anyHeld

/-- The slot entry that owns the slot's current tag (R94). -/
def State.tagOwner? (s : State) (g : SlotId) : Option SlotEntry :=
  if (s.tagState g).owned then s.entry? g else none

/-- Whether a SELECT carrying the slot's current tag waits in the Cell own-telegram queue (R94). -/
def CellTelegram.isSelectFor (t : CellTelegram) (g : SlotId) (tag : Tag) : Bool :=
  t.slot == g && (match t.body with | .select c => c.tag == tag | .cancel _ => false)

/-- SELECT waiting (R94). -/
def State.selectWaiting (s : State) (g : SlotId) : Bool :=
  s.ports.cellOwn.any fun t => t.isSelectFor g (s.tagState g).current

/-! ## The pool, the banks and the holds -/

/-- The record of a waiting RELEASE (R1). -/
def UplinkTelegram.releaseRecord? : UplinkTelegram → Option BodyRecord
  | .release _ r => some r
  | .reply .. | .notice | .copy .. => none

/-- The RELEASING records, in the order of their releases (R1). -/
def State.releasing (s : State) : List BodyRecord := s.ports.uplinkOwn.filterMap (·.releaseRecord?)

/-- The records in the four Station Queues. -/
def State.queued (s : State) : List BodyRecord := allStations.flatMap fun st => (s.station st).queue

/-- The Body Records in use (R1). -/
def State.recordsInUse (s : State) : List BodyRecord := s.queued ++ s.releasing

/-- The tag count of a bank (R35). -/
def State.tagCount (s : State) (i : BankId) : Nat := s.recordsInUse.countP fun r => r.bankTag == i

/-- The bank that is not the one given. -/
def BankId.other : BankId → BankId
  | .a => .b
  | .b => .a

/-- The tables of a bank. -/
def Banks.tables (x : Banks) : BankId → Tables
  | .a => x.tablesA
  | .b => x.tablesB

/-- The banks with one bank's tables replaced. -/
def Banks.setTables (x : Banks) (i : BankId) (t : Tables) : Banks :=
  match i with
  | .a => { x with tablesA := t }
  | .b => { x with tablesB := t }

/-- Whether a bank is ACTIVE. -/
def Banks.isActive (x : Banks) (i : BankId) : Bool := x.active == i

/-- Whether a bank is SHADOW (R32). -/
def Banks.isShadow (x : Banks) (i : BankId) : Bool := !(x.active == i) && x.other == .shadow

/-- A Section Hold is in force while the hold scope is SECTION and a station is HELD (R134). -/
def State.sectionHold (s : State) : Bool :=
  s.holdScope == .wholeSection && allStations.any fun st => (s.station st).state == .held

/-- Whether an operation holds the long-operation slot (R164). -/
def State.running (s : State) (k : LongOpKind) : Bool :=
  match s.agent.longOp with
  | some op => op.kind == k
  | none => false

/-- Whether a COPY BANK or a LOAD IMAGE is running into a bank (R36, R38, R39). -/
def State.filling (s : State) (i : BankId) : Bool :=
  !(s.banks.isActive i) && (s.running .copyBank || s.running .loadImage)

/-- The long-operation slot taken at the present line time (R164). -/
def State.takeSlot (s : State) (k : LongOpKind) : State :=
  s.setAgent { s.agent with longOp := some ⟨k, s.lineTime, 0⟩ }

/-- The long-operation slot freed (R164). -/
def State.freeSlot (s : State) : State := s.setAgent { s.agent with longOp := none }

/-! ## Line time -/

/-- Whether line time has reached an expiry, on the circle of 2^32 (section 5.4 of 05, R103). -/
def reached (now expiry : LineTime) : Bool := decide ((now - expiry).toNat < 2 ^ 31)

/-- The expiry of a timer started now with a length in ms (R103). -/
def expiryAfter (now : LineTime) (length : Nat) : LineTime := now + BitVec.ofNat 32 length

/-! ## Nodes -/

/-- A valid node number: 1 to 65534 (00_scope.md, section 2). -/
def validNode (n : Node) : Bool := n != 0 && n != 65535

/-- The robot node of a slot, while the slot is configured (R145). -/
def State.robotNode? (s : State) (g : SlotId) : Option Node :=
  if s.slotConfigured g then s.filter.robotNodes[g] else none

/-- The configured slot whose robot node a node is (R105). -/
def State.slotOfNode? (s : State) (n : Node) : Option SlotId := allSlots.find? fun g => s.robotNode? g == some n

/-- What a telegram built now is addressed and typed with (R151, R152, R189). -/
def State.envelopeTo (s : State) (destination : Node) : Envelope :=
  ⟨destination, s.filter.ownNode, s.filter.protocolType⟩

/-- The destination of a RELEASE and a NOTICE: the controller node, or the reply node while none is configured (R152).
One of the two exists whenever such a telegram is built (log entry 26). -/
def State.reportNode (s : State) : Node := (s.filter.controllerNode.or s.filter.replyNode).getD 0

end Sys2Proof.Machine
end

