-- ==== Sys2Proof/Machine/Flags.lean ====
section
/-! DEFINITION. The Event Unit: event flags by index (R170), the counters that rise with them (R175), the
pending-notice marker (R171), and the Summary Octet (R160, R192). -/

namespace Sys2Proof.Machine

/-- The 29 event flags (R170). -/
inductive EventFlag where
  | stationHeld (st : StationId)
  | stationWarning (st : StationId)
  | swapSwitched | swapRefused | bankDrained | bankCopied | imageLoaded | imageFault | imageStored
  | announceRefused | guardDrop | frameError | requestDropped | wearUnknownUsed
  | mirrorExhausted (c : ChannelId)
  | copyLost
  deriving DecidableEq, Repr

/-- The index of a flag (R170). -/
def EventFlag.index : EventFlag → Nat
  | .stationHeld st => st.val
  | .stationWarning st => 4 + st.val
  | .swapSwitched => 8
  | .swapRefused => 9
  | .bankDrained => 10
  | .bankCopied => 11
  | .imageLoaded => 12
  | .imageFault => 13
  | .imageStored => 14
  | .announceRefused => 15
  | .guardDrop => 16
  | .frameError => 17
  | .requestDropped => 18
  | .wearUnknownUsed => 19
  | .mirrorExhausted c => 20 + c.val
  | .copyLost => 28

/-- Whether a flag is set. -/
def State.flag (s : State) (f : EventFlag) : Bool := s.events.flags.getLsbD f.index

/-- A flag latched by its event (R170). -/
def State.setFlag (s : State) (f : EventFlag) : State :=
  s.setEvents { s.events with flags := s.events.flags ||| (1#29 <<< f.index) }

/-- A flag set where a condition holds. -/
def State.setFlagIf (s : State) (c : Bool) (f : EventFlag) : State := if c then s.setFlag f else s

/-- A frame error, or a malformed telegram (R147): counted, and Frame Error set. -/
def State.frameError (s : State) : State :=
  (s.setEvents { s.events with frameErrors := bump s.events.frameErrors }).setFlag .frameError

/-- Whether a change of flags and enables brings an enabled flag from clear to set, or enables a set flag (R171). -/
def noticeDue (before after : Events) : Bool :=
  ((after.flags &&& after.enables) &&& ~~~(before.flags &&& before.enables)) != 0

/-- The end of an event (R171): a NOTICE joins the back of the Uplink own-telegram queue, behind every other telegram
of the event (R152), where one is due and none waits. -/
def settleNotice (before after : State) : State :=
  if noticeDue before.events after.events && !after.events.noticePending then
    (after.setPorts { after.ports with uplinkOwn := after.ports.uplinkOwn ++ [.notice] }).setEvents
      { after.events with noticePending := true }
  else after

/-- A command whose effect on the state is a function: it answers the next state, with the NOTICE its flags call for. -/
def event (f : State → State) (s : State) : Host.Outcome State Fault Refusal := .next (settleNotice s (f s))

/-- Any gun with Wear Unknown, of the configured slots (R73). -/
def State.anyWearUnknown (s : State) : Bool := allSlots.any fun g => s.slotConfigured g && (s.gun g).wearUnknown

/-- The Summary Octet (R160) in the layout of R192. -/
def State.summary (s : State) : Octet :=
  Octets.octetOfBits
    [ allStations.any fun st => (s.station st).state == .held,
      allStations.any fun st => s.flag (.stationWarning st),
      s.sectionHold,
      s.agent.partState == .live,
      s.agent.longOp.isSome || s.banks.other == .draining,
      s.flag .imageFault,
      s.anyWearUnknown,
      (s.events.flags &&& s.events.enables) != 0 ]

end Sys2Proof.Machine
end

