-- ==== Sys2Proof/Machine/Mirror.lean ====
section
/-! DEFINITION. The Mirror Unit (R177 to R179): a result record is offered to the channels in ascending number, and
each matching channel places a COPY in the Uplink own-telegram queue or loses it (R152). -/

namespace Sys2Proof.Machine

/-- The trigger a record matches (R178). -/
def CopyContent.trigger : CopyContent → Trigger
  | .release _ => .release
  | .slotDone _ _ => .slotDone
  | .slotFault _ _ _ _ _ => .slotFault

/-- Whether a telegram of the Uplink own-telegram queue is a COPY. -/
def UplinkTelegram.isCopy : UplinkTelegram → Bool
  | .copy .. => true
  | .release .. | .reply .. | .notice => false

/-- The COPYs waiting (R152). -/
def State.copiesWaiting (s : State) : Nat := s.ports.uplinkOwn.countP (·.isCopy)

/-- The most COPYs that may wait (R152). -/
def copyRoom : Nat := 11

/-- A telegram placed at the back of the Uplink own-telegram queue (R152). -/
def State.pushUplink (s : State) (t : UplinkTelegram) : State :=
  s.setPorts { s.ports with uplinkOwn := s.ports.uplinkOwn ++ [t] }

/-- Whether a channel matches a record (R178). -/
def Channel.hits (c : Channel) (st : StationId) (content : CopyContent) : Bool :=
  c.armed && c.trigger == content.trigger && c.stationMask.getLsbD st.val

/-- A channel once its COPY is placed (R179). -/
def Channel.placed (c : Channel) : Channel :=
  match c.count with
  | none => c
  | some _ => { c with remaining := c.remaining - 1, armed := c.armed && decide (1 < c.remaining) }

/-- Whether placing a COPY exhausts a channel (R179). -/
def Channel.exhausts (c : Channel) : Bool := c.count.isSome && decide (c.remaining ≤ 1)

/-- One channel's offer of a record (R152, R178, R179). -/
def offerCopy (st : StationId) (content : CopyContent) (s : State) (c : ChannelId) : State :=
  let x := s.channels[c]
  if x.hits st content then
    if s.copiesWaiting < copyRoom then
      ((s.pushUplink (.copy (s.envelopeTo (x.destination.getD 0)) c st s.lineTime content)).setChannel c x.placed).setFlagIf
        x.exhausts (.mirrorExhausted c)
    else (s.setChannel c { x with copyLost := bump x.copyLost }).setFlag .copyLost
  else s

/-- A record handed to the Mirror Unit (R178). -/
def State.mirror (s : State) (st : StationId) (content : CopyContent) : State :=
  allChannels.foldl (offerCopy st content) s

/-- A SLOT FAULT record for the head's entry at a slot, as the entry stands once the mode has acted (R122, R178, log
entry 17). -/
def State.mirrorFault (s : State) (g : SlotId) (k : FaultKind) : State :=
  match s.head? (stationOf g), s.entry? g with
  | some r, some e => s.mirror (stationOf g) (.slotFault r.bodyId e.position k e.state e.faults)
  | _, _ => s

/-- A SLOT DONE record for the head's entry at a slot (R113, R178). -/
def State.mirrorDone (s : State) (g : SlotId) : State :=
  match s.head? (stationOf g), s.entry? g with
  | some r, some e => s.mirror (stationOf g) (.slotDone r.bodyId e)
  | _, _ => s

end Sys2Proof.Machine
end

