-- ==== Sys2Proof/Machine/Stepper.lean ====
section
/-! DEFINITION. The Current Stepper (R73 to R93): the raise along a stepper curve, the stepped current, the wear update
of a completion, and the limits of a gun brought into range. Whole-number arithmetic throughout (R82). -/

namespace Sys2Proof.Machine

/-- The raise in per mille of a curve at a wear (R82): the first raise at or below the first breakpoint, the last at or
beyond the last, and in between the line from one breakpoint to the next, truncated. -/
def curveRaise : List Breakpoint → Nat → Nat
  | [], _ => 0
  | [x], _ => x.raise
  | x :: y :: rest, wear =>
    if wear ≤ x.wear then x.raise
    else if wear < y.wear then x.raise + (y.raise - x.raise) * (wear - x.wear) / (y.wear - x.wear)
    else curveRaise (y :: rest) wear

/-- A base current raised by a per mille and rounded half up (R82). -/
def unclampedCurrent (base raise : Nat) : Nat := (base * (1000 + raise) + 500) / 1000

/-- The stepped current of a group (R82): the unclamped current, held at the gun's ceiling. -/
def steppedCurrent (base raise ceiling : Nat) : Nat := min (unclampedCurrent base raise) ceiling

/-- Whether a group is clamped (R84). -/
def currentClamped (base raise ceiling : Nat) : Bool := decide (ceiling < unclampedCurrent base raise)

/-- The wear after the spots of a completion (R90). -/
def addSpots (wear spots : Nat) : Nat := if 65535 < wear + spots then 65535 else wear + spots

/-- The Gun Table entry after a completion handed to the Current Stepper (R89 to R91): spots added when the station is
not Dry, then a reported dress. -/
def Gun.completion (g : Gun) (dry : Bool) (spots : Nat) (dressed : Bool) : Gun :=
  let welded := if dry then g else { g with wear := addSpots g.wear spots }
  if dressed then
    { welded with wear := 0, dressDue := false, wearUnknown := false, dressCount := bump welded.dressCount }
  else welded

/-- Limits brought into range in the order of R76: dress limit, ceiling, then a hard limit not below the dress limit. -/
def clampLimits (l : GunLimits) : GunLimits :=
  let dress := clamp 100 60000 l.dressLimit
  ⟨dress, if l.hardLimit < dress then dress else l.hardLimit, clamp 20 1800 l.ceiling⟩

/-- The Gun Table entry with its three limits written. -/
def Gun.withLimits (g : Gun) (l : GunLimits) : Gun :=
  { g with dressLimit := l.dressLimit, hardLimit := l.hardLimit, ceiling := l.ceiling }

/-- The default limits (R74). -/
def defaultLimits : GunLimits := ⟨2000, 3000, 1800⟩

/-- Whether a resolution finds a gun at or beyond its hard limit (R87). -/
def Gun.overrun (g : Gun) : Bool := decide (g.hardLimit ≤ g.wear)

/-- Whether a resolution asks the robot to dress (R85). -/
def Gun.needsDress (g : Gun) : Bool := decide (g.dressLimit ≤ g.wear)

end Sys2Proof.Machine
end

