-- ==== Sys2Proof/Machine/Tables.lean ====
section
/-! DEFINITION. The six tables of a bank (R25 to R31): lookup and write by index in one canonical form, the records of
WRITE TABLE and of an image with the checks of R37, the partial copy of R42, and the validation of R44. -/

namespace Sys2Proof.Machine

open Octets

/-! ## One table: indexes strictly rising, no empty entry listed -/

/-- The entry at an index, or none where it is empty. -/
def tableGet {α : Type} (t : List (Nat × α)) (i : Nat) : Option α := (t.find? fun e => e.1 == i).map (·.2)

/-- A record written at an index. -/
def tableInsert {α : Type} (i : Nat) (x : α) : List (Nat × α) → List (Nat × α)
  | [] => [(i, x)]
  | (j, y) :: rest =>
    if i < j then (i, x) :: (j, y) :: rest
    else if i = j then (i, x) :: rest
    else (j, y) :: tableInsert i x rest

/-- An entry written: a record, or the empty record, which makes the entry empty (section 2.1 of 02). -/
def tablePut {α : Type} (t : List (Nat × α)) (i : Nat) : Option α → List (Nat × α)
  | some x => tableInsert i x t
  | none => t.filter fun e => e.1 != i

/-- The canonical form of one table: indexes strictly rising. -/
def tableWf {α : Type} (t : List (Nat × α)) : Bool := decide (t.Pairwise fun x y => x.1 < y.1)

/-- The empty Dispatch Matrix cell (R25). -/
def emptyCell : MatrixCell := ⟨0, 1⟩

/-- What a Dispatch Matrix cell is listed as: the empty cell is not listed. -/
def listedCell (c : MatrixCell) : Option MatrixCell := if c = emptyCell then none else some c

/-- A Dispatch Matrix cell of a bank (R27). -/
def Tables.cell (t : Tables) (i : Nat) : MatrixCell := (tableGet t.matrix i).getD emptyCell

/-- A plan of a bank (R29). -/
def Tables.plan? (t : Tables) (n : Nat) : Option PlanEntry := tableGet t.plans n

/-- A schedule of a bank (R30). -/
def Tables.schedule? (t : Tables) (n : Nat) : Option ScheduleEntry := tableGet t.schedules n

/-- A stepper curve of a bank (R31). -/
def Tables.curve? (t : Tables) (n : Nat) : Option (List Breakpoint) := tableGet t.curves n

/-- The style lookup of R26: the row of the non-empty entry that holds a style code. -/
def Tables.styleRow? (t : Tables) (code : BitVec 16) : Option Nat :=
  (t.styles.find? fun e => e.2.code == code).map (·.2.row)

/-- The canonical form of a bank's tables: each table's, and no empty cell listed in the Dispatch Matrix. -/
def Tables.wf (t : Tables) : Bool :=
  tableWf t.styles && tableWf t.matrix && tableWf t.overlays && tableWf t.plans && tableWf t.schedules &&
    tableWf t.curves && t.matrix.all fun e => e.2 != emptyCell

/-! ## Table 2-1 -/

/-- The table a table octet names (R192). -/
def tableOf? (o : Octet) : Option TableId :=
  match o.toNat with
  | 0 => some .styles
  | 1 => some .matrix
  | 2 => some .overlays
  | 3 => some .plans
  | 4 => some .schedules
  | 5 => some .curves
  | _ => none

/-- The number of a table (R192). -/
def TableId.number : TableId → Fin 6
  | .styles => 0
  | .matrix => 1
  | .overlays => 2
  | .plans => 3
  | .schedules => 4
  | .curves => 5

/-- The lowest index of a table (Table 2-1). -/
def TableId.firstIndex : TableId → Nat
  | .styles | .matrix | .overlays => 0
  | .plans | .schedules | .curves => 1

/-- The capacity of a table (Table 2-1). -/
def TableId.capacity : TableId → Nat
  | .styles => 64
  | .matrix => 2048
  | .overlays => 128
  | .plans => 512
  | .schedules => 64
  | .curves => 16

/-- Whether an index lies in a table's range (Table 2-1). -/
def TableId.inRange (t : TableId) (i : Nat) : Bool := decide (t.firstIndex ≤ i) && decide (i < t.firstIndex + t.capacity)

/-! ## Records and their checks (R37) -/

/-- A record of one of the tables. -/
inductive Record where
  | style (e : StyleEntry)
  | cell (c : MatrixCell)
  | overlay (e : OverlayEntry)
  | plan (e : PlanEntry)
  | schedule (e : ScheduleEntry)
  | curve (e : List Breakpoint)
  deriving DecidableEq, Repr

/-- The checks a record can fail, in the order of R192. -/
inductive RecordCheck where
  | range | order | duplicateCode
  deriving DecidableEq, Repr

/-- A record that passed its own checks, or the check it failed. -/
abbrev CheckedRecord := Except RecordCheck Record

/-- Range check of a Style Directory record (R37). DEDUCED (log entry 33): it comes before the Duplicate Code test of
`firstFailure`, so that a record that fails both is reported with Range. -/
def checkStyle (code : BitVec 16) (row : Nat) : CheckedRecord :=
  if code = 0 ∨ code = 65535 ∨ 63 < row then .error .range else .ok (.style ⟨code, row⟩)

/-- Range check of a Dispatch Matrix record (R37). -/
def checkCell (plan span : Nat) : CheckedRecord :=
  if 512 < plan ∨ span = 0 ∨ 4 < span then .error .range else .ok (.cell ⟨plan, span⟩)

/-- Range check of an Overlay List record (R37); style row 255 is ANY, action 0 SUBSTITUTE, 1 APPEND (R192). -/
def checkOverlay (bit row slot action plan : Nat) : CheckedRecord :=
  if 15 < bit ∨ (63 < row ∧ row ≠ 255) ∨ 31 < slot ∨ 1 < action ∨ plan = 0 ∨ 512 < plan then .error .range
  else .ok (.overlay ⟨bit, if row = 255 then none else some row, slot, if action = 0 then .substitute else .append, plan⟩)

/-- Range check of one step (R37): type 0 GROUP with schedule and spot count, type 1 CALL with a 2-octet plan (R192). -/
def checkStep (type x y : Octet) : Option PlanStep :=
  if type = 0 then
    if x = 0 ∨ 64 < x.toNat ∨ y = 0 then none else some (.group x.toNat y.toNat)
  else if type = 1 then
    let plan := x.toNat * 256 + y.toNat
    if plan = 0 ∨ 512 < plan then none else some (.call plan)
  else none

/-- Range check of a Plan Store record (R37). -/
def checkPlan (program cycleMin cycleMax : Nat) (steps : List (Octet × Octet × Octet)) : CheckedRecord :=
  if program = 0 ∨ steps.length = 0 ∨ 12 < steps.length then .error .range
  else
    match steps.mapM fun x => checkStep x.1 x.2.1 x.2.2 with
    | some l => .ok (.plan ⟨program, cycleMin, cycleMax, l⟩)
    | none => .error .range

/-- Range check of a Schedule Table record (R37). -/
def checkSchedule (base weldTime curve : Nat) : CheckedRecord :=
  if base < 20 ∨ 1800 < base ∨ weldTime = 0 ∨ 999 < weldTime ∨ 16 < curve then .error .range
  else .ok (.schedule ⟨base, weldTime, curve⟩)

/-- The order of a curve's breakpoints: wear strictly increasing, raise not decreasing (R31). -/
def curveOrdered : List Breakpoint → Bool
  | x :: y :: rest => decide (x.wear < y.wear) && decide (x.raise ≤ y.raise) && curveOrdered (y :: rest)
  | _ => true

/-- Range and Order checks of a Stepper Curves record (R37), Range first as the table has them. -/
def checkCurve (points : List Breakpoint) : CheckedRecord :=
  if points.length < 2 ∨ 8 < points.length ∨ points.any (fun p => 60000 < p.wear || 500 < p.raise) then .error .range
  else if curveOrdered points then .ok (.curve points) else .error .order

/-- `n` steps of 3 octets, and the rest. -/
def readSteps : Nat → List Octet → Option (List (Octet × Octet × Octet) × List Octet)
  | 0, os => some ([], os)
  | n + 1, a :: x :: y :: rest => (readSteps n rest).map fun r => ((a, x, y) :: r.1, r.2)
  | _ + 1, _ => none

/-- `n` breakpoints of wear count and raise, and the rest. -/
def readPoints : Nat → List Octet → Option (List Breakpoint × List Octet)
  | 0, os => some ([], os)
  | n + 1, a :: x :: y :: z :: rest =>
    (readPoints n rest).map fun r => (⟨(a ++ x).toNat, (y ++ z).toNat⟩ :: r.1, r.2)
  | _ + 1, _ => none

/-- The fields of a record of a table (R192), checked on their own, and the rest; none where they run past the octets. -/
def readFields (t : TableId) (os : List Octet) : Option (CheckedRecord × List Octet) :=
  match t with
  | .styles => do
    let (code, p) ← read2 os
    let (row, p) ← read1 p
    some (checkStyle code row.toNat, p)
  | .matrix => do
    let (plan, p) ← read2 os
    let (span, p) ← read1 p
    some (checkCell plan.toNat span.toNat, p)
  | .overlays => do
    let (bit, p) ← read1 os
    let (row, p) ← read1 p
    let (slot, p) ← read1 p
    let (action, p) ← read1 p
    let (plan, p) ← read2 p
    some (checkOverlay bit.toNat row.toNat slot.toNat action.toNat plan.toNat, p)
  | .plans => do
    let (program, p) ← read1 os
    let (cycleMin, p) ← read2 p
    let (cycleMax, p) ← read2 p
    let (count, p) ← read1 p
    let (steps, p) ← readSteps count.toNat p
    some (checkPlan program.toNat cycleMin.toNat cycleMax.toNat steps, p)
  | .schedules => do
    let (base, p) ← read2 os
    let (weldTime, p) ← read2 p
    let (curve, p) ← read1 p
    some (checkSchedule base.toNat weldTime.toNat curve.toNat, p)
  | .curves => do
    let (count, p) ← read1 os
    let (points, p) ← readPoints count.toNat p
    some (checkCurve points, p)

/-- One record of WRITE TABLE (R192): presence octet 0 for an empty record, 1 for a record whose fields follow. -/
def readRecord (t : TableId) (os : List Octet) : Option (Except RecordCheck (Option Record) × List Octet) :=
  match os with
  | [] => none
  | presence :: rest =>
    if presence = 0 then some (.ok none, rest)
    else if presence = 1 then (readFields t rest).map fun r => (r.1.map some, r.2)
    else none

/-- All the records up to the end of the octets (R36), with fuel for the length; none where octets remain that do not
make a whole record. -/
def readRecords (t : TableId) : Nat → List Octet → Option (List (Except RecordCheck (Option Record)))
  | _, [] => some []
  | 0, _ :: _ => none
  | fuel + 1, os => do
    let (r, rest) ← readRecord t os
    let more ← readRecords t fuel rest
    some (r :: more)

/-- A checked entry written at an index of its table. -/
def Tables.putRecord (t : Tables) (k : TableId) (i : Nat) : Option Record → Tables
  | some (.style e) => { t with styles := tablePut t.styles i (some e) }
  | some (.cell c) => { t with matrix := tablePut t.matrix i (listedCell c) }
  | some (.overlay e) => { t with overlays := tablePut t.overlays i (some e) }
  | some (.plan e) => { t with plans := tablePut t.plans i (some e) }
  | some (.schedule e) => { t with schedules := tablePut t.schedules i (some e) }
  | some (.curve e) => { t with curves := tablePut t.curves i (some e) }
  | none =>
    match k with
    | .styles => { t with styles := tablePut t.styles i none }
    | .matrix => { t with matrix := tablePut t.matrix i none }
    | .overlays => { t with overlays := tablePut t.overlays i none }
    | .plans => { t with plans := tablePut t.plans i none }
    | .schedules => { t with schedules := tablePut t.schedules i none }
    | .curves => { t with curves := tablePut t.curves i none }

/-- Entries written from an index upward (R36). -/
def Tables.putRun (t : Tables) (k : TableId) (first : Nat) : List (Option Record) → Tables
  | [] => t
  | r :: rest => (t.putRecord k first r).putRun k (first + 1) rest

/-- The style code of a Style Directory record. -/
def styleCodeOf : Except RecordCheck (Option Record) → Option (BitVec 16)
  | .ok (some (.style e)) => some e.code
  | _ => none

/-- The first failing record of a run written from index `first` upward, its position counted from 0 and the check it
failed (R37). A style code is a duplicate when an entry outside the run, which stands after the request as before it,
or an earlier record of the run holds it, so that of two records with one code the second fails. DEDUCED (log entry 33): R37
does not say which check is reported for a record that fails Range and Duplicate Code; Range is. -/
def firstFailure (t : Tables) (first : Nat) (records : List (Except RecordCheck (Option Record))) :
    Option (Nat × RecordCheck) :=
  (records.zipIdx.findSome? fun r =>
    match r.1 with
    | .error c => some (r.2, c)
    | .ok (some (.style e)) =>
      let outside := t.styles.any fun x =>
        x.2.code == e.code && !(decide (first ≤ x.1) && decide (x.1 < first + records.length))
      let earlier := (records.take r.2).any fun x => styleCodeOf x == some e.code
      if outside || earlier then some (r.2, .duplicateCode) else none
    | .ok _ => none)

/-- The entries of a run whose records all passed. -/
def passedRecords (records : List (Except RecordCheck (Option Record))) : List (Option Record) :=
  records.filterMap fun r => match r with | .ok x => some x | .error _ => none

/-! ## Records as octets (R192) -/

/-- The octets of a step. -/
def stepOctets : PlanStep → List Octet
  | .group schedule spots => 0 :: nat1 schedule ++ nat1 spots
  | .call plan => 1 :: nat2 plan

/-- The fields of a record. -/
def Record.octets : Record → List Octet
  | .style e => be2 e.code ++ nat1 e.row
  | .cell c => nat2 c.basePlan ++ nat1 c.span
  | .overlay e =>
    nat1 e.optionBit ++ opt1 e.row ++ nat1 e.slot ++ (match e.action with | .substitute => [0] | .append => [1]) ++
      nat2 e.plan
  | .plan e => nat1 e.program ++ nat2 e.cycleMin ++ nat2 e.cycleMax ++ counted stepOctets e.steps
  | .schedule e => nat2 e.base ++ nat2 e.weldTime ++ nat1 e.curve
  | .curve e => counted (fun p : Breakpoint => nat2 p.wear ++ nat2 p.raise) e

/-- The record at an index of a table, or none where the entry is empty. -/
def Tables.record? (t : Tables) (k : TableId) (i : Nat) : Option Record :=
  match k with
  | .styles => (tableGet t.styles i).map .style
  | .matrix => (tableGet t.matrix i).map .cell
  | .overlays => (tableGet t.overlays i).map .overlay
  | .plans => (tableGet t.plans i).map .plan
  | .schedules => (tableGet t.schedules i).map .schedule
  | .curves => (tableGet t.curves i).map .curve

/-- The non-empty entries of every table, as an image frames them (R181). DESIGN CHOICE (log entry 37): R181 gives no order of
the records; they stand table by table in the order of Table 2-1, each table in ascending index. -/
def Tables.records (t : Tables) : List (TableId × Nat × Record) :=
  (t.styles.map fun e => (.styles, e.1, .style e.2)) ++ (t.matrix.map fun e => (.matrix, e.1, .cell e.2)) ++
    (t.overlays.map fun e => (.overlays, e.1, .overlay e.2)) ++ (t.plans.map fun e => (.plans, e.1, .plan e.2)) ++
    (t.schedules.map fun e => (.schedules, e.1, .schedule e.2)) ++ t.curves.map fun e => (.curves, e.1, .curve e.2)

/-! ## The copy of R42 -/

/-- A table whose entries below an index are the source's and whose others are the target's. -/
def mergeAt {α : Type} (cut : Nat) (source target : List (Nat × α)) : List (Nat × α) :=
  (source.filter fun e => e.1 < cut) ++ target.filter fun e => cut ≤ e.1

/-- The number of entries a COPY BANK copies: the capacities of Table 2-1 together. -/
def copyTotal : Nat := 2832

/-- The target once the first `n` entries have been copied, in the order of R42. -/
def copyTables (n : Nat) (source target : Tables) : Tables where
  styles    := mergeAt n source.styles target.styles
  matrix    := mergeAt (n - 64) source.matrix target.matrix
  overlays  := mergeAt (n - 2112) source.overlays target.overlays
  plans     := mergeAt (n - 2239) source.plans target.plans
  schedules := mergeAt (n - 2751) source.schedules target.schedules
  curves    := mergeAt (n - 2815) source.curves target.curves

/-! ## Validation (R44) -/

/-- A validation failure as the Validation Report holds it (R45). -/
structure ValidationFailure where
  table      : TableId
  index      : Nat
  detail     : Option Nat
  reason     : ValidationReason
  referenced : Nat
  deriving DecidableEq, Repr

/-- Order 1 of R44. -/
def styleFailure (t : Tables) : Option ValidationFailure :=
  t.styles.findSome? fun e => if 63 < e.2.row then some ⟨.styles, e.1, none, .rowRange, e.2.row⟩ else none

/-- Order 2 of R44. -/
def matrixFailure (t : Tables) : Option ValidationFailure :=
  t.matrix.findSome? fun e =>
    let c := e.2
    if c.basePlan = 0 then none
    else if 512 < c.basePlan + c.span - 1 then some ⟨.matrix, e.1, none, .planRange, c.basePlan + c.span - 1⟩
    else
      (List.range c.span).findSome? fun k =>
        if (t.plan? (c.basePlan + k)).isNone then some ⟨.matrix, e.1, some k, .planMissing, c.basePlan + k⟩ else none

/-- Order 3 of R44. -/
def overlayFailure (t : Tables) : Option ValidationFailure :=
  t.overlays.findSome? fun e =>
    if (t.plan? e.2.plan).isNone then some ⟨.overlays, e.1, none, .planMissing, e.2.plan⟩ else none

/-- Order 4 of R44. -/
def planFailure (t : Tables) : Option ValidationFailure :=
  t.plans.findSome? fun e =>
    e.2.steps.zipIdx.findSome? fun x =>
      match x.1 with
      | .group schedule _ =>
        if (t.schedule? schedule).isNone then some ⟨.plans, e.1, some (x.2 + 1), .scheduleMissing, schedule⟩ else none
      | .call plan =>
        if (t.plan? plan).isNone then some ⟨.plans, e.1, some (x.2 + 1), .planMissing, plan⟩ else none

/-- Order 5 of R44. -/
def scheduleFailure (t : Tables) : Option ValidationFailure :=
  t.schedules.findSome? fun e =>
    if e.2.curve ≠ 0 ∧ (t.curve? e.2.curve).isNone then some ⟨.schedules, e.1, none, .curveMissing, e.2.curve⟩ else none

/-- The first failure validation finds in a bank's tables, or none (R44). -/
def validationFailure (t : Tables) : Option ValidationFailure :=
  (styleFailure t).or ((matrixFailure t).or ((overlayFailure t).or ((planFailure t).or (scheduleFailure t))))

/-- The Validation Report of a validation of a bank that ends now (R45). -/
def reportOf (bank : BankId) (failure : Option ValidationFailure) (now : LineTime) : ValidationReport :=
  match failure with
  | none => ⟨.passed, some bank, none, none, none, none, none, some now⟩
  | some f => ⟨.failed, some bank, some f.table, some f.index, f.detail, some f.reason, some f.referenced, some now⟩

end Sys2Proof.Machine
end

