-- ==== Sys2Proof/Machine/Resolver.lean ====
section
/-! DEFINITION. Program resolution (R51 to R69): matrix cell and variant offset, overlays, expansion with its depth and
length limits, currents and the wear check. A resolution is a function of the record's fields, the tagged bank's tables
and the gun; what its outcome does to the station is in Bodies.lean and Supervisor.lean. -/

namespace Sys2Proof.Machine

/-! ## Matrix cell and variant offset (R53, R54) -/

/-- The plan that stands after the variant offset, if any, and whether the variant was clamped. -/
def variantPlan (c : MatrixCell) (variant : Nat) : Option Nat × Bool :=
  if c.basePlan = 0 then (none, false)
  else if variant < c.span then (some (c.basePlan + variant), false)
  else (some (c.basePlan + (c.span - 1)), true)

/-! ## Overlays (R55 to R58) -/

/-- Whether an overlay matches a body at a global slot (R55). -/
def OverlayEntry.hits (e : OverlayEntry) (options : BitVec 16) (row : Nat) (g : SlotId) : Bool :=
  options.getLsbD e.optionBit && e.slot == g.val && (match e.row with | none => true | some r => r == row)

/-- The matching entries of the Overlay List in the order of the walk (R56). -/
def overlayMatches (t : Tables) (options : BitVec 16) (row : Nat) (g : SlotId) : List (Nat × OverlayEntry) :=
  t.overlays.filter fun e => e.2.hits options row g

/-- The base-position plan and the appended plans that the taken overlays leave (Table 3-1), or none for NO PLAN. -/
def overlaidPlans (standing : Option Nat) (taken : List OverlayEntry) : Option (Nat × List Nat) :=
  let substitutes := (taken.filter fun e => e.action == .substitute).map (·.plan)
  let appends := (taken.filter fun e => e.action == .append).map (·.plan)
  match substitutes, standing, appends with
  | plan :: _, _, _ => some (plan, appends)
  | [], some plan, _ => some (plan, appends)
  | [], none, plan :: rest => some (plan, rest)
  | [], none, [] => none

/-! ## Expansion (R59 to R63) -/

/-- A group produced by expansion, with the schedule and the breakpoints its current is stepped from. -/
structure ExpandedGroup where
  schedule : Nat
  spots    : Nat
  entry    : ScheduleEntry
  curve    : List Breakpoint
  deriving DecidableEq, Repr

/-- The capacity of the group buffer (R51). -/
def groupLimit : Nat := 24

/-- The CALLs that may be open beneath a top-level plan (R60). -/
def callLimit : Nat := 4

/-- A GROUP step (R61, R62): the length test, then the schedule, then its curve; the group joins the buffer. -/
def expandGroup (t : Tables) (schedule spots : Nat) (buffer : List ExpandedGroup) :
    Except ExpansionErrorKind (List ExpandedGroup) :=
  if groupLimit ≤ buffer.length then .error .length
  else
    match t.schedule? schedule with
    | none => .error .missing
    | some e =>
      if e.curve = 0 then .ok (buffer ++ [⟨schedule, spots, e, []⟩])
      else
        match t.curve? e.curve with
        | none => .error .missing
        | some points => .ok (buffer ++ [⟨schedule, spots, e, points⟩])

/-- The steps of a plan in their order, a CALL being expanded by `call` (R59). -/
def expandSteps (t : Tables)
    (call : Nat → List ExpandedGroup → Except ExpansionErrorKind (List ExpandedGroup)) :
    List PlanStep → List ExpandedGroup → Except ExpansionErrorKind (List ExpandedGroup)
  | [], buffer => .ok buffer
  | .group schedule spots :: rest, buffer =>
    match expandGroup t schedule spots buffer with
    | .ok buffer' => expandSteps t call rest buffer'
    | .error k => .error k
  | .call plan :: rest, buffer =>
    match call plan buffer with
    | .ok buffer' => expandSteps t call rest buffer'
    | .error k => .error k

/-- A CALL with `free` frames left on the expansion stack (R60): the depth test, then the test for emptiness (R62), then
the called plan's steps one level deeper. -/
def expandCall (t : Tables) :
    Nat → Nat → List ExpandedGroup → Except ExpansionErrorKind (List ExpandedGroup)
  | 0, _, _ => .error .depth
  | free + 1, plan, buffer =>
    match t.plan? plan with
    | none => .error .missing
    | some e => expandSteps t (expandCall t free) e.steps buffer

/-- A top-level plan (R59): its own emptiness test, then its steps with an empty expansion stack. -/
def expandTop (t : Tables) (plan : Nat) (buffer : List ExpandedGroup) :
    Except ExpansionErrorKind (List ExpandedGroup) :=
  match t.plan? plan with
  | none => .error .missing
  | some e => expandSteps t (expandCall t callLimit) e.steps buffer

/-- The base-position plan and then each appended plan (R59), into one group buffer (R61). -/
def expandAll (t : Tables) : List Nat → List ExpandedGroup → Except ExpansionErrorKind (List ExpandedGroup)
  | [], buffer => .ok buffer
  | plan :: rest, buffer =>
    match expandTop t plan buffer with
    | .ok buffer' => expandAll t rest buffer'
    | .error k => .error k

/-! ## The outcome (R52, R67) -/

/-- What a resolution with a plan leaves (R67): the entry's resolution fields, the warnings of R68, the fault it ends
with, and whether the gun was consulted (R63: not after an Expansion Error). -/
structure Resolution where
  effectivePlan   : Nat
  overlays        : List Nat
  program         : Option Nat
  groups          : List Group
  plannedSpots    : Option Nat
  expansionError  : Option ExpansionErrorKind
  clamp           : Bool
  dressRequested  : Bool
  wearUnconfirmed : Bool
  warned          : Bool
  fault           : Option FaultKind
  consulted       : Bool
  deriving DecidableEq, Repr

/-- A group with its stepped current (R65, R82). -/
def ExpandedGroup.stepped (x : ExpandedGroup) (gun : Gun) : Group :=
  ⟨x.schedule, x.spots, x.entry.weldTime, steppedCurrent x.entry.base (curveRaise x.curve gun.wear) gun.ceiling⟩

/-- Whether a group's current is clamped (R84). -/
def ExpandedGroup.clamped (x : ExpandedGroup) (gun : Gun) : Bool :=
  currentClamped x.entry.base (curveRaise x.curve gun.wear) gun.ceiling

/-- The resolution of a body at a slot (R52): none for NO PLAN. `overrunTested` says that the station's mode for Wear
Overrun is not OFF (R87). -/
def resolve (t : Tables) (gun : Gun) (overrunTested : Bool) (row variant : Nat) (options : BitVec 16) (g : SlotId) :
    Option Resolution :=
  let standing := variantPlan (t.cell (32 * row + g.val)) variant
  let found := overlayMatches t options row g
  let taken := found.take 3
  let excess := decide (3 < found.length)
  match overlaidPlans standing.1 (taken.map (·.2)) with
  | none => none
  | some (plan, appended) =>
    let early := standing.2 || excess
    match expandAll t (plan :: appended) [] with
    | .error k =>
      some ⟨plan, taken.map (·.1), none, [], none, some k, false, false, false, early, some .expansionError, false⟩
    | .ok groups =>
      let clamped := groups.any fun x => x.clamped gun
      some
        { effectivePlan := plan
          overlays := taken.map (·.1)
          program := (t.plan? plan).map (·.program)
          groups := groups.map fun x => x.stepped gun
          plannedSpots := some (groups.map (·.spots)).sum
          expansionError := none
          clamp := clamped
          dressRequested := gun.needsDress
          wearUnconfirmed := gun.wearUnknown
          warned := early || clamped
          fault := if overrunTested && gun.overrun then some .wearOverrun else none
          consulted := true }

end Sys2Proof.Machine
end

