-- ==== Sys2Proof/Machine/Selection.lean ====
section
/-! DEFINITION. Selections and cancellations of the Handshake Engine (R95 to R102): dispatch tags, the SELECT and the
CANCEL, and the re-selection. -/

namespace Sys2Proof.Machine

/-- The tag after a tag, in the cycle 1 to 65535 (R95). -/
def nextTag (t : Tag) : Tag := if t = 65535 then 1 else t + 1

/-- The Cell own-telegram queue without the telegram of a slot, those behind it closed up (R98). -/
def State.dropCell (s : State) (g : SlotId) : State :=
  s.setPorts { s.ports with cellOwn := s.ports.cellOwn.filter fun t => t.slot != g }

/-- A telegram placed at the back of the Cell own-telegram queue (R98), addressed to the slot's robot node. -/
def State.pushCell (s : State) (g : SlotId) (body : CellBody) : State :=
  s.setPorts { s.ports with cellOwn := s.ports.cellOwn ++ [⟨g, s.envelopeTo ((s.robotNode? g).getD 0), body⟩] }

/-- The content of a SELECT (R97). -/
def selectContent (tag : Tag) (r : BodyRecord) (e : SlotEntry) (dry : Bool) : SelectContent where
  tag             := tag
  bodyId          := r.bodyId
  program         := e.program.getD 0
  dry             := dry
  dressRequest    := e.dressRequested
  wearUnconfirmed := e.wearUnconfirmed
  groups          := e.groups

/-- A SELECT built for the head's entry at a slot (R95, R97, R98): it takes the slot's next tag and joins the back of the
queue in place of any telegram of the slot that waits there; the entry goes to SELECTED. -/
def State.sendSelect (s : State) (g : SlotId) : State :=
  match s.head? (stationOf g), s.entry? g with
  | some r, some e =>
    let t := s.tagState g
    let content := selectContent t.next r e (s.station (stationOf g)).dry
    (((s.dropCell g).pushCell g (.select content)).setTag g
      { t with next := nextTag t.next, current := t.next, owned := true }).modifyEntry g fun e =>
        { e with tag := some t.next, state := .selected }
  | _, _ => s

/-- Both timers of a slot stopped. -/
def TagState.stopTimers (t : TagState) : TagState := { t with readyTimer := none, cycleTimer := none }

/-- The slot's current selection called off (R100). -/
def State.cancelSlot (s : State) (g : SlotId) : State :=
  let t := s.tagState g
  if t.current = 0 then s
  else
    (if s.selectWaiting g then s.dropCell g else s.pushCell g (.cancel t.current)).setTag g
      { t.stopTimers with cancelled := t.current, current := 0, owned := false }

/-- A new SELECT in place of the present one, without a CANCEL (R101). -/
def State.reselect (s : State) (g : SlotId) : State :=
  let t := s.tagState g
  let superseded := { t.stopTimers with cancelled := if t.current = 0 then t.cancelled else t.current }
  (((s.dropCell g).setTag g superseded).sendSelect g).modifyEntry g fun e => { e with readyAt := none }

end Sys2Proof.Machine
end

