-- ==== Sys2Proof/Machine/Bodies.lean ====
section
/-! DEFINITION. The life of a Body Record in its Station Queue: refusals (R8), acceptance (R6, R7), head start (R12 to
R15), release (R16 to R18) and withdrawal (R21, R22), with the fault modes that act at resolution (R126, R129). -/

namespace Sys2Proof.Machine

/-! ## Refusals (R8) -/

/-- A refused announcement or withdrawal: logged behind the last three, counted, and Announce Refused set. -/
def State.refuse (s : State) (bodyId : BodyId) (station : Octet) (reason : RefusalReason) : State :=
  let log := s.tracker.refusalLog ++ [⟨bodyId, station, reason, s.lineTime⟩]
  ((s.setTracker { s.tracker with refusalLog := log.drop (log.length - 4) }).setEvents
    { s.events with refusals := bump s.events.refusals }).setFlag .announceRefused

/-! ## Release (R16 to R18) -/

/-- What a release is caused by (R17): the end of the body's work, a withdrawal or ABORT, or an Unknown Style under PASS
or SKIP. -/
inductive ReleaseCause where
  | finished | aborted | unknownStyle
  deriving DecidableEq, Repr

/-- The body outcome (R17). -/
def releaseOutcome (cause : ReleaseCause) (r : BodyRecord) : BodyOutcome :=
  match cause with
  | .aborted => .aborted
  | .unknownStyle => .faulted
  | .finished => if r.entries.any fun e => e.state == .faulted then .faulted else .clean

/-- A station's counters after a release (R18). -/
def StationCounters.released (c : StationCounters) : BodyOutcome → StationCounters
  | .clean => { c with releasedClean := bump c.releasedClean }
  | .faulted => { c with releasedFaulted := bump c.releasedFaulted }
  | .aborted => { c with aborted := bump c.aborted }

/-- A record as its RELEASE carries it (R18): released now, with its outcome, RELEASING. -/
def releasedRecord (r : BodyRecord) (cause : ReleaseCause) (now : LineTime) : BodyRecord :=
  { r with state := .releasing, releasedAt := some now, outcome := some (releaseOutcome cause r) }

/-- The RELEASE of a record placed in the Uplink own-telegram queue, its station's counter raised, and the RELEASE
record handed to the Mirror Unit (R18, R178). -/
def State.emitRelease (s : State) (r : BodyRecord) (cause : ReleaseCause) : State :=
  let x := releasedRecord r cause s.lineTime
  let station := s.station r.station
  ((s.pushUplink (.release (s.envelopeTo s.reportNode) x)).setStation r.station
    { station with counters := station.counters.released (releaseOutcome cause r) }).mirror r.station (.release x)

/-- The tag owners of a station's slots become none when the head's record is released (R94). -/
def State.disown (s : State) (st : StationId) : State :=
  s.setTags (tabulate fun g => if stationOf g = st then { s.tagState g with owned := false } else s.tagState g)

/-- The head of a station released (R18): out of the queue, its station IDLE. The caller tests the head start condition. -/
def State.releaseHead (s : State) (st : StationId) (cause : ReleaseCause) : State :=
  match s.head? st with
  | none => s
  | some r =>
    let x := s.station st
    ((s.setStation st { x with queue := x.queue.tail, state := .idle }).disown st).emitRelease
      { r with station := st } cause

/-! ## Resolution at a slot, and what its outcome does (R13, R126) -/

/-- The slot entry a resolution makes (R67), before its state is decided. -/
def entryOf (p : Position) (x : Resolution) : SlotEntry where
  position        := p
  effectivePlan   := x.effectivePlan
  overlays        := x.overlays
  program         := x.program
  groups          := x.groups
  plannedSpots    := x.plannedSpots
  expansionError  := x.expansionError
  clamp           := x.clamp
  dressRequested  := x.dressRequested
  wearUnconfirmed := x.wearUnconfirmed
  state           := .waiting
  faults          := 0
  held            := false
  warned          := x.warned
  refusalReason   := none
  spotsWelded     := none
  tag             := none
  selectedAt      := none
  readyAt         := none

/-- The resolution of the head of a station at a slot, against the tables of its tag (R52). -/
def State.resolution? (s : State) (g : SlotId) : Option Resolution :=
  match s.head? (stationOf g) with
  | none => none
  | some r =>
    match r.row with
    | none => none
    | some row =>
      resolve (s.banks.tables r.bankTag) (s.gun g) (s.mode (stationOf g) .wearOverrun != .off) row r.variant r.options g

/-- What a resolution leaves outside the slot entry: Dress Due (R85), Wear Unknown Used (R86), Station Warning (R68), and
the Resolver's structures empty again (R51). -/
def State.afterResolution (s : State) (g : SlotId) (x : Resolution) : State :=
  let gun := s.gun g
  (((s.setResolver ⟨[], []⟩).setGun g
    { gun with dressDue := gun.dressDue || (x.consulted && x.dressRequested) }).setFlagIf
      (x.consulted && x.wearUnconfirmed) .wearUnknownUsed).setFlagIf x.warned (.stationWarning (stationOf g))

/-- A slot entry made for the head, its fault set holding the resolution's fault if it has one. Entries are made in
ascending position (R3, R13). -/
def State.addEntry (s : State) (g : SlotId) (e : SlotEntry) : State :=
  s.modifyHead (stationOf g) fun r => { r with entries := r.entries ++ [e] }

/-- One slot of a starting head (R13): resolved, and its entry taken under the station's mode for the fault found
(R126). -/
def State.startSlot (s : State) (g : SlotId) : State :=
  match s.resolution? g with
  | none => s
  | some x =>
    let made := s.afterResolution g x
    let e := entryOf (positionOf g) x
    match x.fault with
    | none => (made.addEntry g e).sendSelect g
    | some k =>
      let f := { e with faults := addFault 0 k }
      match s.mode (stationOf g) k with
      | .pass => (made.addEntry g { f with state := .faulted }).mirrorFault g k
      | .warn =>
        (((made.addEntry g { f with state := .selected, warned := true }).setFlag
          (.stationWarning (stationOf g))).mirrorFault g k).sendSelect g
      | .hold | .off =>
        ((made.addEntry g { f with held := true }).setFlag (.stationHeld (stationOf g))).mirrorFault g k

/-! ## Head start (R12 to R15) -/

/-- Where a head stands once its entries are made, and where a CLEAR STATION leaves it (R15, R141): released when the
release condition holds, else HELD with a held mark, else DISPATCHING. -/
def State.settleHead (s : State) (st : StationId) : State :=
  match s.head? st with
  | none => s
  | some r =>
    if r.releasable then s.releaseHead st .finished
    else s.setStationState st (if r.anyHeld then .held else .dispatching)

/-- A body hold for Unknown Style (R129). -/
def State.holdBody (s : State) (st : StationId) : State :=
  ((s.modifyHead st fun r => { r with bodyHeld := true }).setFlag (.stationHeld st)).setStationState st .held

/-- The configured slots of a station, position 0 upward. -/
def State.configuredSlots (s : State) (st : StationId) : List SlotId :=
  (allPositions.map (slotOf st)).filter s.slotConfigured

/-- The station's ready limit put in force for the selections of the head that starts (R11, log entry 36). -/
def State.latchReady (s : State) (st : StationId) : State :=
  s.setStation st { s.station st with headLimit := (s.station st).readyLimit }

/-- A head under way (R13, R14): held or released for Unknown Style, or, under the ready limit of this moment, resolved slot by
slot and settled. -/
def State.runHead (s : State) (st : StationId) : State :=
  match s.head? st with
  | none => s
  | some r =>
    if r.row.isNone then
      if s.mode st .unknownStyle = .pass then s.releaseHead st .unknownStyle else s.holdBody st
    else ((s.configuredSlots st).foldl State.startSlot (s.latchReady st)).settleHead st

/-- The front record made ACTIVE and started now (R13). -/
def State.activateFront (s : State) (st : StationId) : State :=
  let x := s.station st
  match x.queue with
  | [] => s
  | r :: rest => s.setStation st { x with queue := { r with state := .active, startedAt := some s.lineTime } :: rest }

/-- Whether a station's front record is QUEUED. -/
def Station.frontQueued (x : Station) : Bool :=
  match x.queue with
  | r :: _ => r.state == .queued
  | [] => false

/-- The head start condition (R12). -/
def State.canStart (s : State) (st : StationId) : Bool :=
  (s.station st).state == .idle && (s.station st).frontQueued && s.banks.validated && !s.sectionHold

/-- The head start condition tested, and again after each head released at once (R15), with fuel for the records that
can start. -/
def State.startHeads (st : StationId) : Nat → State → State
  | 0, s => s
  | fuel + 1, s => if s.canStart st then State.startHeads st fuel ((s.activateFront st).runHead st) else s

/-- A station's test of its head start condition (R12). -/
def State.testStation (s : State) (st : StationId) : State := State.startHeads st (s.station st).queue.length s

/-- The 24 orders of the four stations, for R12's "no order among themselves". -/
def stationOrders : List (List StationId) := allStations.permutations'

/-- The order a free value gives (log entry 7). -/
def stationOrder (k : Fin 24) : List StationId := stationOrders.getD k.val allStations

/-- Every station's test, in an order that is open (R12, log entry 7). -/
def State.testEvery (s : State) : State :=
  (stationOrder (Config.stationOrder s.free)).foldl State.testStation (s.setFree (s.free + 1))

/-- After a station's own test, every station's, where a Section Hold in force before the event has ended (R134; log
entry 8 for the order). `released` is the state in which the hold is looked for. -/
def testAfterHold (before released tested : State) : State :=
  if before.sectionHold && !released.sectionHold then tested.testEvery else tested

/-- The release condition tested after an entry ended or lost its held mark (R16), and the head start condition after a
release (R18). -/
def State.testRelease (s : State) (st : StationId) : State :=
  match s.head? st with
  | some r => if r.releasable then (s.releaseHead st .finished).testStation st else s
  | none => s

/-! ## Acceptance (R6, R7) -/

/-- A record's place in a Station Queue (R7): a NORMAL one at the back, a REWORK one ahead of the first NORMAL record in
state QUEUED. -/
def joinQueue (queue : List BodyRecord) (r : BodyRecord) : List BodyRecord :=
  match r.origin with
  | .normal => queue ++ [r]
  | .rework =>
    let ahead := queue.takeWhile fun x => !(x.origin == .normal && x.state == .queued)
    ahead ++ r :: queue.drop ahead.length

/-- The record of an accepted announcement (R2, R6). -/
def newRecord (s : State) (bodyId : BodyId) (st : StationId) (style options : BitVec 16) (variant : Octet)
    (origin : Origin) : BodyRecord where
  bodyId      := bodyId
  station     := st
  style       := style
  row         := (s.banks.tables s.banks.active).styleRow? style
  options     := options
  variant     := min variant.toNat 3
  origin      := origin
  bankTag     := s.banks.active
  state       := .queued
  announcedAt := s.lineTime
  startedAt   := none
  releasedAt  := none
  entries     := []
  bodyHeld    := false
  outcome     := none

/-- The conditions that refuse an announcement, in the order of R5. DESIGN CHOICE (log entry 35): until a configuration is
applied, when the station count is 0, R5 gives the reason Source, as no node is configured, and R162 the reason No Such Station;
which of the two rules holds there is a free constant. -/
def announceRefusal (s : State) (source : Node) (bodyId : BodyId) (station : Octet) : Option RefusalReason :=
  if s.tracker.stationCount = 0 ∧ Config.noStationFirst = true then some .noSuchStation
  else if s.filter.controllerNode ≠ some source ∧ s.filter.trackerNode ≠ some source then some .source
  else
    match s.configuredStation? station with
    | none => some .noSuchStation
    | some st =>
      let x := s.station st
      if x.state = .offline then some .stationOffline
      else if s.banks.validated = false then some .noTables
      else if x.queue.any fun r => r.bodyId == bodyId then some .duplicate
      else if 4 ≤ x.queue.length ∨ 16 ≤ s.recordsInUse.length then some .queueFull
      else none

/-- An announcement accepted (R6): the record joins its queue, and an IDLE station tests its head start condition where
the record stands at the front. -/
def State.accept (s : State) (st : StationId) (r : BodyRecord) (clamped : Bool) : State :=
  let x := s.station st
  let queue := joinQueue x.queue r
  let joined := (s.setStation st { x with queue := queue }).setFlagIf clamped (.stationWarning st)
  if x.state = .idle ∧ queue.head? = some r then joined.testStation st else joined

/-- The Body Tracker takes an ANNOUNCE (R5, R6): malformed, refused or accepted. -/
def State.takeAnnounce (s : State) (source : Node) (bodyId : BodyId) (station origin : Octet)
    (style options : BitVec 16) (variant : Octet) : State :=
  if bodyId = 0 ∨ style = 0 ∨ style = 65535 ∨ 1 < origin.toNat then s.frameError
  else
    match announceRefusal s source bodyId station, s.configuredStation? station with
    | some reason, _ => s.refuse bodyId station reason
    | none, none => s.refuse bodyId station .noSuchStation
    | none, some st =>
      let r := newRecord s bodyId st style options variant (if origin = 0 then .normal else .rework)
      s.accept st r (decide (3 < variant.toNat))

/-! ## Withdrawal (R21, R22) -/

/-- One entry of a withdrawn head (R22, R131). -/
def State.withdrawEntry (s : State) (g : SlotId) : State :=
  match s.entry? g with
  | none => s
  | some e =>
    match e.state with
    | .waiting => s.modifyEntry g fun e => { e with state := .cancelled, held := false }
    | .selected | .loaded => (s.cancelSlot g).modifyEntry g fun e => { e with state := .cancelled, held := false }
    | .finished =>
      (s.modifyEntry g fun x => { x with held := false, warned := x.warned || x.held }).setFlagIf e.held
        (.stationWarning (stationOf g))
    | .faulted | .cancelled => s.modifyEntry g fun e => { e with held := false }

/-- The slots of the head's entries, in ascending position. -/
def State.entrySlots (s : State) (st : StationId) : List SlotId :=
  match s.head? st with
  | none => []
  | some r => r.entries.map fun e => slotOf st e.position

/-- The head withdrawn and released ABORTED (R22), before any head start test. -/
def State.abortHead (s : State) (st : StationId) : State :=
  (((s.entrySlots st).foldl State.withdrawEntry s).modifyHead st fun r => { r with bodyHeld := false }).releaseHead st
    .aborted

/-- The head withdrawn, and the tests that follow (R22, R134). -/
def State.withdrawHead (s : State) (st : StationId) : State :=
  let released := s.abortHead st
  testAfterHold s released (released.testStation st)

/-- A QUEUED record withdrawn (R21): out of the queue wherever it stands and released ABORTED. -/
def State.withdrawQueued (s : State) (st : StationId) (r : BodyRecord) : State :=
  let x := s.station st
  (s.setStation st { x with queue := x.queue.filter fun y => y.bodyId != r.bodyId }).emitRelease
    { r with station := st, entries := [] } .aborted

/-- The record of a station's queue with a Body Id (R21). -/
def State.findBody (s : State) (st : StationId) (bodyId : BodyId) : Option BodyRecord :=
  (s.station st).queue.find? fun r => r.bodyId == bodyId

/-- A withdrawal whose sender has been checked (R21): the state after it, and the reason where it is refused. -/
def State.withdrawBody (s : State) (bodyId : BodyId) (station : Octet) : State × Option RefusalReason :=
  match s.configuredStation? station with
  | none => (s.refuse bodyId station .noSuchStation, some .noSuchStation)
  | some st =>
    match s.findBody st bodyId with
    | none => (s.refuse bodyId station .notFound, some .notFound)
    | some r => (if r.state = .active then s.withdrawHead st else s.withdrawQueued st r, none)

/-- The Body Tracker takes a WITHDRAW telegram (R21). -/
def State.takeWithdraw (s : State) (source : Node) (bodyId : BodyId) (station : Octet) : State :=
  if s.filter.controllerNode ≠ some source ∧ s.filter.trackerNode ≠ some source then s.refuse bodyId station .source
  else (s.withdrawBody bodyId station).1

end Sys2Proof.Machine
end

