-- ==== Sys2Proof/Machine/Supervisor.lean ====
section
/-! DEFINITION. The Fault Supervisor (R122 to R142): how the modes act on a slot fault, on the faults a DONE reveals, and
CLEAR STATION with its three options. -/

namespace Sys2Proof.Machine

/-! ## Slot faults (R125, R127) -/

/-- A held mark placed on the head of a DISPATCHING station makes it HELD; a HELD station stays HELD (R125, R132). -/
def State.enterHeld (s : State) (st : StationId) : State :=
  if (s.station st).state = .dispatching then s.setStationState st .held else s

/-- A slot fault at an outstanding entry taken under its station's mode (R125): HOLD, PASS with the slot cancelled, WARN,
or no detection under OFF. The release test that follows a PASS is the caller's. -/
def State.takeFault (s : State) (g : SlotId) (k : FaultKind) : State :=
  let st := stationOf g
  match s.mode st k with
  | .off => s
  | .hold =>
    (((s.modifyEntry g fun e => { e with faults := addFault e.faults k, held := true }).setFlag
      (.stationHeld st)).enterHeld st).mirrorFault g k
  | .pass =>
    ((s.cancelSlot g).modifyEntry g fun e => { e with faults := addFault e.faults k, state := .faulted }).mirrorFault g k
  | .warn =>
    ((s.modifyEntry g fun e => { e with faults := addFault e.faults k, warned := true }).setFlag
      (.stationWarning st)).mirrorFault g k

/-! ## The faults of a DONE (R112, R113, R128) -/

/-- The effective plan of the head's entry at a slot, in the bank of the body's tag (R64). -/
def State.effectivePlan? (s : State) (g : SlotId) : Option PlanEntry :=
  match s.head? (stationOf g), s.entry? g with
  | some r, some e => (s.banks.tables r.bankTag).plan? e.effectivePlan
  | _, _ => none

/-- The cycle time of a DONE (R111, R112): from the SELECT's departure for an entry in SELECTED, from the READY for one in
LOADED, modulo 2^32. -/
def cycleTime (e : SlotEntry) (now : LineTime) : Nat :=
  (now - (if e.state = .loaded then e.readyAt else e.selectedAt).getD now).toNat

/-- The kinds a DONE reveals (R112), in the order of R122. -/
def State.doneFaults (s : State) (g : SlotId) (e : SlotEntry) (spots : Nat) (reject : Bool) : List FaultKind :=
  let st := stationOf g
  let cycleMin := ((s.effectivePlan? g).map (·.cycleMin)).getD 0
  let short := cycleMin != 0 && decide (cycleTime e s.lineTime < cycleMin)
  let shortfall := decide (spots < e.plannedSpots.getD 0)
  (if short && s.mode st .shortCycle != .off then [.shortCycle] else []) ++
    (if shortfall && s.mode st .spotShortfall != .off then [.spotShortfall] else []) ++
    (if reject && s.mode st .qualityReject != .off then [.qualityReject] else [])

/-- The strongest of some modes, in the order HOLD, PASS, WARN (R128); none where there is no mode. -/
def governing (modes : List FaultMode) : Option FaultMode :=
  if modes.contains .hold then some .hold
  else if modes.contains .pass then some .pass
  else if modes.isEmpty then none
  else some .warn

/-- The entry after a DONE (R113, R128): its spots, every detected kind in its fault set, and the governing mode's end. -/
def SlotEntry.afterDone (e : SlotEntry) (spots : Nat) (kinds : List FaultKind) (mode : Option FaultMode) : SlotEntry :=
  { e with
    spotsWelded := some spots
    faults := kinds.foldl addFault e.faults
    state := if mode = some .pass then .faulted else .finished
    held := e.held || mode == some .hold
    warned := e.warned || mode == some .warn }

/-- A Matching DONE accepted (R111 to R113): timers stopped, faults evaluated, the entry ended, the SLOT DONE record and a
SLOT FAULT record for each kind handed to the Mirror Unit, the gun's wear updated (R89), and the release condition
tested (R16). -/
def State.acceptDone (s : State) (g : SlotId) (e : SlotEntry) (spots : Nat) (reject dressed : Bool) : State :=
  let st := stationOf g
  let kinds := s.doneFaults g e spots reject
  let mode := governing (kinds.map (s.mode st))
  let ended := (s.setTag g (s.tagState g).stopTimers).modifyEntry g fun e => e.afterDone spots kinds mode
  let marked :=
    match mode with
    | some .hold => (ended.setFlag (.stationHeld st)).enterHeld st
    | some .warn => ended.setFlag (.stationWarning st)
    | some .pass | some .off | none => ended
  let recorded := kinds.foldl (fun s k => s.mirrorFault g k) (marked.mirrorDone g)
  (recorded.setGun g ((recorded.gun g).completion (recorded.station st).dry spots dressed)).testRelease st

/-! ## CLEAR STATION (R135 to R141) -/

/-- The options of CLEAR STATION (R135). -/
inductive ClearOption where
  | retry | skip | abort
  deriving DecidableEq, Repr

/-- The resolution fields of an entry replaced by a re-resolution (R69), its fault set emptied (R137). -/
def SlotEntry.reresolved (e : SlotEntry) (x : Resolution) : SlotEntry :=
  { e with
    effectivePlan := x.effectivePlan
    overlays := x.overlays
    program := x.program
    groups := x.groups
    plannedSpots := x.plannedSpots
    expansionError := x.expansionError
    clamp := x.clamp
    dressRequested := x.dressRequested
    wearUnconfirmed := x.wearUnconfirmed
    warned := e.warned || x.warned
    faults := 0 }

/-- The outstanding selection of an entry that was SELECTED called off (R137); a WAITING entry has none. -/
def State.cancelIfSelected (s : State) (g : SlotId) (e : SlotEntry) : State :=
  if e.state = .selected then s.cancelSlot g else s

/-- A held entry in WAITING or SELECTED under RETRY (R137): re-resolved and then re-selected, held again or ended. -/
def State.retrySelection (s : State) (g : SlotId) (e : SlotEntry) : State :=
  let st := stationOf g
  match s.resolution? g with
  | none => s
  | some x =>
    let again := (s.afterResolution g x).modifyEntry g fun e => e.reresolved x
    match x.fault with
    | none =>
      ((again.modifyEntry g fun e => { e with held := false, warned := true }).setFlag (.stationWarning st)).reselect g
    | some k =>
      match s.mode st k with
      | .warn =>
        (((again.modifyEntry g fun e => { e with faults := addFault 0 k, state := .selected, held := false, warned := true
          }).setFlag (.stationWarning st)).mirrorFault g k).reselect g
      | .pass =>
        (((again.cancelIfSelected g e).modifyEntry g fun e => { e with faults := addFault 0 k, state := .faulted, held := false
          })).mirrorFault g k
      | .hold | .off =>
        (((again.cancelIfSelected g e).modifyEntry g fun e => { e with faults := addFault 0 k, state := .waiting, held := true
          }).setFlag (.stationHeld st)).mirrorFault g k

/-- One held entry under RETRY (R136). -/
def State.retryEntry (s : State) (g : SlotId) : State :=
  match s.entry? g with
  | none => s
  | some e =>
    if e.held = false then s
    else
      match e.state with
      | .waiting | .selected => s.retrySelection g e
      | .loaded =>
        ((s.setTag g { s.tagState g with cycleTimer := none }).modifyEntry g fun e =>
          { e with held := false, warned := true }).setFlag (.stationWarning (stationOf g))
      | .finished => s.modifyEntry g fun e => { e with state := .faulted, held := false }
      | .faulted | .cancelled => s.modifyEntry g fun e => { e with held := false }

/-- One held entry under SKIP (R139). -/
def State.skipEntry (s : State) (g : SlotId) : State :=
  match s.entry? g with
  | none => s
  | some e =>
    if e.held = false then s
    else
      match e.state with
      | .waiting | .finished | .faulted => s.modifyEntry g fun e => { e with state := .faulted, held := false }
      | .selected | .loaded => (s.cancelSlot g).modifyEntry g fun e => { e with state := .faulted, held := false }
      | .cancelled => s.modifyEntry g fun e => { e with held := false }

/-- The end of a drain (R48): a DRAINING bank whose tag count is 0 becomes SHADOW, and Bank Drained is set. -/
def State.drainTest (s : State) : State :=
  if s.banks.other = .draining ∧ s.tagCount s.banks.active.other = 0 then
    (s.setBanks { s.banks with other := .shadow, loadIncomplete := false }).setFlag .bankDrained
  else s

/-- The body held mark cleared. -/
def BodyRecord.unheld (r : BodyRecord) : BodyRecord := { r with bodyHeld := false }

/-- A head whose body held mark is set, under RETRY (R138): the style looked up again in the ACTIVE bank, and the head
started afresh under its tag, or the station's mode for Unknown Style applied again. -/
def State.retryBody (s : State) (st : StationId) : State :=
  match s.head? st with
  | none => s
  | some r =>
    if r.bodyHeld = false then s
    else
      match (s.banks.tables s.banks.active).styleRow? r.style with
      | some row =>
        let tagged := s.modifyHead st fun r =>
          { r with row := some row, bankTag := s.banks.active, bodyHeld := false, startedAt := some s.lineTime }
        (if r.bankTag = s.banks.active then tagged else tagged.drainTest).runHead st
      | none =>
        if s.mode st .unknownStyle = .pass then (s.modifyHead st BodyRecord.unheld).releaseHead st .unknownStyle
        else s.holdBody st

/-- A head whose body held mark is set, under SKIP (R139): released with no slot entries and outcome FAULTED. -/
def State.skipBody (s : State) (st : StationId) : State :=
  match s.head? st with
  | none => s
  | some r => if r.bodyHeld then (s.modifyHead st BodyRecord.unheld).releaseHead st .unknownStyle else s

/-- What an option of CLEAR STATION does to the head (R136 to R140). -/
def State.clearHead (s : State) (st : StationId) : ClearOption → State
  | .retry => ((s.entrySlots st).foldl State.retryEntry s).retryBody st
  | .skip => ((s.entrySlots st).foldl State.skipEntry s).skipBody st
  | .abort => s.abortHead st

/-- An accepted CLEAR STATION (R135, R141): the option's acts, the station settled, and the head start tests; with the
station's state at the end of the event, IDLE if the head was released (log entry 14). -/
def State.clearStation (s : State) (st : StationId) (option : ClearOption) : State × StationState :=
  let settled := (s.clearHead st option).settleHead st
  (testAfterHold s settled (settled.testStation st), (settled.station st).state)

end Sys2Proof.Machine
end

