-- ==== Sys2Proof/Machine/Operands.lean ====
section
/-! DEFINITION. The coded operands of requests (R192): each octet that names something, read once; an undefined code is
none, which the request's rule answers BAD PARAMETER. -/

namespace Sys2Proof.Machine

/-- A bank: 0 A, 1 B. -/
def bankOf? (o : Octet) : Option BankId :=
  match o.toNat with
  | 0 => some .a
  | 1 => some .b
  | _ => none

/-- A station number 0 to 3, configured or not. -/
def stationOf? (o : Octet) : Option StationId := if h : o.toNat < 4 then some ⟨o.toNat, h⟩ else none

/-- A global slot number 0 to 31, configured or not. -/
def slotOf? (o : Octet) : Option SlotId := if h : o.toNat < 32 then some ⟨o.toNat, h⟩ else none

/-- A Mirror Channel number 0 to 7. -/
def channelOf? (o : Octet) : Option ChannelId := if h : o.toNat < 8 then some ⟨o.toNat, h⟩ else none

/-- A yes-or-no option: 0 no or clear, 1 yes or set. -/
def flagOf? (o : Octet) : Option Bool :=
  match o.toNat with
  | 0 => some false
  | 1 => some true
  | _ => none

/-- The mode of SET STATION: 0 OFFLINE, 1 IDLE, 2 MANUAL. -/
def stationModeOf? (o : Octet) : Option StationState :=
  match o.toNat with
  | 0 => some .offline
  | 1 => some .idle
  | 2 => some .manual
  | _ => none

/-- A fault kind, in the order of R122. -/
def faultKindOf? (o : Octet) : Option FaultKind :=
  match o.toNat with
  | 0 => some .readyTimeout
  | 1 => some .readyRefused
  | 2 => some .cycleTimeout
  | 3 => some .shortCycle
  | 4 => some .spotShortfall
  | 5 => some .qualityReject
  | 6 => some .wearOverrun
  | 7 => some .expansionError
  | 8 => some .unknownStyle
  | _ => none

/-- A hold scope: 0 STATION, 1 SECTION. -/
def scopeOf? (o : Octet) : Option HoldScope :=
  match o.toNat with
  | 0 => some .station
  | 1 => some .wholeSection
  | _ => none

/-- An option of CLEAR STATION: 0 RETRY, 1 SKIP, 2 ABORT. -/
def clearOptionOf? (o : Octet) : Option ClearOption :=
  match o.toNat with
  | 0 => some .retry
  | 1 => some .skip
  | 2 => some .abort
  | _ => none

/-- A trigger, coded as in a COPY (R191): 0 RELEASE, 1 SLOT DONE, 2 SLOT FAULT. -/
def triggerOf? (o : Octet) : Option Trigger :=
  match o.toNat with
  | 0 => some .release
  | 1 => some .slotDone
  | 2 => some .slotFault
  | _ => none

/-- The count of SET MIRROR: form 0 counted, a count of 0 being undefined (R177); form 1 CONTINUOUS, the count ignored. -/
def mirrorCountOf? (form count : Octet) : Option (Option Nat) :=
  match form.toNat with
  | 0 => if count = 0 then none else some (some count.toNat)
  | 1 => some none
  | _ => none

end Sys2Proof.Machine
end

