-- ==== Sys2Proof/Machine/Image.lean ====
section
/-! DEFINITION. The image (R181), its checks as a load reads the flash (R183), the configuration it applies (R184) and
CONFIGURE's shape values (R162), the octets a store writes (R186), and the progress of a transfer. -/

namespace Sys2Proof.Machine

open Octets

/-! ## Shape values (R162) -/

/-- Check 2 of CONFIGURE: counts, Protocol Type and node numbers in range. -/
def Shape.inRange (x : Shape) : Bool :=
  decide (1 ≤ x.stationCount) && decide (x.stationCount ≤ 4) && x.slotCounts.length == x.stationCount &&
    (x.slotCounts.all fun n => decide (1 ≤ n) && decide (n ≤ 8)) && x.robotNodes.length == x.slotCounts.sum &&
    decide (0x0600 ≤ x.protocolType.toNat) && validNode x.own && validNode x.controller && x.tracker.all validNode &&
    x.robotNodes.all validNode

/-- Check 3 of CONFIGURE: no two of the nodes are equal. -/
def Shape.distinct (x : Shape) : Bool :=
  decide (x.own :: x.controller :: (x.tracker.toList ++ x.robotNodes)).Nodup

/-- The slot count of each station under a shape; 0 for a station it leaves unconfigured. -/
def Shape.counts (x : Shape) : Vector Nat 4 :=
  tabulate fun st => if st.val < x.stationCount then x.slotCounts.getD st.val 0 else 0

/-- The robot node of each slot under a shape, in ascending global slot order; none for a slot it leaves unconfigured. -/
def Shape.nodes (x : Shape) : Vector (Option Node) 32 :=
  tabulate fun g =>
    if (positionOf g).val < x.counts[stationOf g] then
      x.robotNodes[(x.slotCounts.take (stationOf g).val).sum + (positionOf g).val]?
    else none

/-- Whether a shape returns a slot's tag state to its power-up values (R162): it leaves the slot unconfigured, or changes
its robot node. -/
def State.shapeResets (s : State) (x : Shape) (g : SlotId) : Bool :=
  x.nodes[g].isNone || x.nodes[g] != s.robotNode? g

/-- Whether a telegram of the Cell own-telegram queue is a CANCEL. -/
def CellTelegram.isCancel (t : CellTelegram) : Bool := match t.body with | .cancel _ => true | .select _ => false

/-- The shape values of a configuration written as one event (R162, R184). -/
def State.applyShape (s : State) (x : Shape) : State :=
  (((s.setTags (tabulate fun g => if s.shapeResets x g then TagState.reset else s.tagState g)).setPorts
    { s.ports with cellOwn := s.ports.cellOwn.filter fun t => !(t.isCancel && s.shapeResets x t.slot) }).setTracker
    { s.tracker with stationCount := x.stationCount, slotCounts := x.counts }).setFilter
    { s.filter with
      protocolType := x.protocolType
      ownNode := x.own
      controllerNode := some x.controller
      trackerNode := x.tracker
      robotNodes := x.nodes }

/-- Every station OFFLINE with an empty Station Queue (R162, R184). -/
def State.quiet (s : State) : Bool := s.tracker.stations.toList.all fun x => x.state == .offline && x.queue.isEmpty

/-! ## The configuration part of an image (R181) -/

/-- The code of a mode (R192). -/
def FaultMode.code : FaultMode → Nat
  | .hold => 0
  | .pass => 1
  | .warn => 2
  | .off => 3

/-- The mode a mode octet names (R192). -/
def modeOf? (o : Octet) : Option FaultMode :=
  match o.toNat with
  | 0 => some .hold
  | 1 => some .pass
  | 2 => some .warn
  | 3 => some .off
  | _ => none

/-- The fault kinds in the order of R122. -/
def allKinds : List FaultKind :=
  [.readyTimeout, .readyRefused, .cycleTimeout, .shortCycle, .spotShortfall, .qualityReject, .wearOverrun,
    .expansionError, .unknownStyle]

/-- The code of a hold scope (R192). -/
def HoldScope.code : HoldScope → Nat
  | .station => 0
  | .wholeSection => 1

/-- The configured slots of the part in ascending global slot order. -/
def State.allConfiguredSlots (s : State) : List SlotId := allSlots.filter s.slotConfigured

/-- The configured stations of the part in ascending number. -/
def State.configuredStations (s : State) : List StationId :=
  allStations.filter fun st => decide (st.val < s.tracker.stationCount)

/-- The configuration part of the image of the configuration in force (R181). -/
def State.configOctets (s : State) : List Octet :=
  be2 s.filter.protocolType ++ be2 s.filter.ownNode ++
    be2 (s.filter.controllerNode.getD Config.unconfiguredController) ++ be2 (s.filter.trackerNode.getD 0) ++
    nat1 s.tracker.stationCount ++ (s.configuredStations.flatMap fun st => nat1 s.tracker.slotCounts[st]) ++
    (s.allConfiguredSlots.flatMap fun g => be2 ((s.robotNode? g).getD 0)) ++
    (s.configuredStations.flatMap fun st =>
      nat2 (s.station st).readyLimit ++ allKinds.flatMap fun k => nat1 (s.mode st k).code) ++
    nat1 s.holdScope.code ++
    s.allConfiguredSlots.flatMap fun g => nat2 (s.gun g).dressLimit ++ nat2 (s.gun g).hardLimit ++ nat2 (s.gun g).ceiling

/-- `n` ready limits with nine mode codes each, and the rest. -/
def readStations : Nat → List Octet → Option (List (Nat × List Octet) × List Octet)
  | 0, os => some ([], os)
  | n + 1, os => do
    let (limit, p) ← read2 os
    let (modes, p) ← readMany1 9 p
    let (more, p) ← readStations n p
    some ((limit.toNat, modes) :: more, p)

/-- `n` sets of gun limits, and the rest. -/
def readGuns : Nat → List Octet → Option (List GunLimits × List Octet)
  | 0, os => some ([], os)
  | n + 1, os => do
    let (dress, p) ← read2 os
    let (hard, p) ← read2 p
    let (ceiling, p) ← read2 p
    let (more, p) ← readGuns n p
    some (⟨dress.toNat, hard.toNat, ceiling.toNat⟩ :: more, p)

/-- The configuration part read from octets, and the rest (R181); none where they run short. -/
def readConfig (os : List Octet) : Option (ImageConfig × List Octet) := do
  let (protocolType, p) ← read2 os
  let (own, p) ← read2 p
  let (controller, p) ← read2 p
  let (tracker, p) ← read2 p
  let (stationCount, p) ← read1 p
  let (slotCounts, p) ← readMany1 stationCount.toNat p
  let slots := (slotCounts.map BitVec.toNat).sum
  let (robotNodes, p) ← readMany2 slots p
  let (stations, p) ← readStations stationCount.toNat p
  let (holdScope, p) ← read1 p
  let (guns, p) ← readGuns slots p
  some
    (⟨⟨protocolType, own, controller, if tracker = 0 then none else some tracker, stationCount.toNat,
        slotCounts.map BitVec.toNat, robotNodes⟩, stations, holdScope, guns⟩, p)

/-- A ready limit brought into range (R11). -/
def clampReady (n : Nat) : Nat := clamp 100 30000 n

/-- The modes an image gives a station: a mode its kind does not allow, or an undefined one, is the kind's default
(R143). -/
def imageModes (codes : List Octet) : Vector FaultMode 9 :=
  tabulate fun i =>
    let k := allKinds.getD i.val .unknownStyle
    match modeOf? (codes.getD i.val 255) with
    | some m => if k.allows m then m else defaultModes[k.number]
    | none => defaultModes[k.number]

/-- The hold scope of an image (R192); an undefined code is a free value (log entry 22). -/
def imageScope (o : Octet) : HoldScope :=
  if o = 0 then .station
  else if o = 1 then .wholeSection
  else if Config.undefinedHoldScope o then .wholeSection
  else .station

/-- A station's ready limit and modes under an image (R184): the image's values, or the defaults where the shape is
applied and leaves the station unconfigured, or as they stand. The selections of a head in progress keep the ready limit that is
in force for them (R11, log entry 36). -/
def imageStation (c : ImageConfig) (shaped : Bool) (st : StationId) (x : Station) : Station :=
  match c.stations[st.val]? with
  | some (limit, modes) => { x with readyLimit := clampReady limit, modes := imageModes modes }
  | none => if shaped then { x with readyLimit := 3000, modes := defaultModes } else x

/-- The limits an image gives a slot: in ascending global slot order over the slots of its shape. -/
def imageLimits? (c : ImageConfig) (g : SlotId) : Option GunLimits :=
  if (positionOf g).val < c.shape.counts[stationOf g] then
    c.guns[(c.shape.slotCounts.take (stationOf g).val).sum + (positionOf g).val]?
  else none

/-- A gun's limits under an image (R74, R184). -/
def imageGun (c : ImageConfig) (shaped : Bool) (g : SlotId) (x : Gun) : Gun :=
  match imageLimits? c g with
  | some l => x.withLimits (clampLimits l)
  | none => if shaped then x.withLimits defaultLimits else x

/-- The values of a configuration part beside the shape (R184). -/
def State.applySettings (s : State) (c : ImageConfig) (shaped : Bool) : State :=
  ((s.setTracker { s.tracker with stations := tabulate fun st => imageStation c shaped st (s.station st) }).setGuns
    (tabulate fun g => imageGun c shaped g (s.gun g))).setScope (imageScope c.holdScope)

/-- The configuration part applied (R184): the shape values where `shaped` says so, and the others always. -/
def State.applyConfig (s : State) (c : ImageConfig) (shaped : Bool) : State :=
  (if shaped then s.applyShape c.shape else s).applySettings c shaped

/-! ## Reading the flash (R183) -/

/-- `n` octets of the flash from an offset; erased flash reads as 0xFF (R181). -/
def flashRead (flash : List Octet) (offset n : Nat) : List Octet :=
  ((flash.drop offset).take n ++ List.replicate n 255).take n

/-- The sum of some octets, modulo 65,536 (R181). -/
def octetSum (os : List Octet) : BitVec 16 := BitVec.ofNat 16 ((os.map BitVec.toNat).sum)

/-- The format mark (R181). -/
def formatMark : BitVec 32 := 0x5C4160A7

/-- The octets of the header (R181). -/
def headerLength : Nat := 25

/-- The header of an image, or none where its format mark or version is wrong (order 1 of R183). -/
def readHeader (os : List Octet) : Option ImageHeader := do
  let (mark, p) ← read4 os
  let (version, p) ← read1 p
  let (counts, p) ← readMany2 6 p
  let (configLength, p) ← read2 p
  let (payloadLength, p) ← read4 p
  let (checksum, _) ← read2 p
  if mark = formatMark ∧ version = 1 then
    some ⟨tabulate fun i => (counts.getD i.val 0).toNat, configLength.toNat, payloadLength.toNat, checksum⟩
  else none

/-- A load that found a failure. -/
def Loader.fail (l : Loader) : Loader := { l with phase := .failed }

/-- The most octets a record of an image can span: a curve that claims 255 breakpoints. -/
def recordSpan : Nat := 1024

/-- One record at the present position (order 3 of R183): its table, index, earlier record and record checks, the
duplicate code test against the directory as loaded so far; a record that passes is written at once. -/
def loadRecord (flash : List Octet) (l : Loader) (t : Tables) : Loader × Tables :=
  match flashRead flash l.position recordSpan with
  | table :: hi :: lo :: fields =>
    match tableOf? table with
    | none => (l.fail, t)
    | some k =>
      let index := (hi ++ lo).toNat
      if !k.inRange index || l.seen.contains (k, index) then (l.fail, t)
      else
        match readFields k fields with
        | some (.ok r, rest) =>
          let length := 3 + (fields.length - rest.length)
          if (firstFailure t index [.ok (some r)]).isSome then (l.fail, t)
          else
            ({ l with
                sum := l.sum + octetSum (flashRead flash l.position length)
                counts := l.counts.set k.number (l.counts[k.number] + 1)
                position := l.position + length
                seen := (k, index) :: l.seen },
              t.putRecord k index (some r))
        | some (.error _, _) | none => (l.fail, t)
  | _ => (l.fail, t)

/-- The end of the payload (order 4 of R183): record counts and checksum, over the adjustment octet too. -/
def loadFinish (flash : List Octet) (l : Loader) (h : ImageHeader) : Loader :=
  let sum := l.sum + octetSum (flashRead flash l.position 1)
  let ended := { l with sum := sum, position := l.position + 1 }
  if l.counts = h.recordCounts ∧ sum = h.checksum ∧ h.checksum ≠ 65535 then { ended with phase := .passed }
  else ended.fail

/-- One unit of a load (R183): the header, the configuration part, one record, or the end checks. -/
def loadUnit (flash : List Octet) (x : Loader × Tables) : Loader × Tables :=
  let l := x.1
  match l.phase, l.header with
  | .header, _ =>
    match readHeader (flashRead flash 0 headerLength) with
    | some h => ({ l with header := some h, phase := .config, position := headerLength }, x.2)
    | none => (l.fail, x.2)
  | .config, some h =>
    let os := flashRead flash l.position h.configLength
    match readConfig os with
    | some (c, []) =>
      if c.shape.inRange && c.shape.distinct then
        ({ l with
            config := some c, sum := l.sum + octetSum os, phase := .records, position := l.position + h.configLength },
          x.2)
      else (l.fail, x.2)
    | some (_, _ :: _) | none => (l.fail, x.2)
  | .records, some h =>
    if l.position + 1 < headerLength + h.payloadLength then loadRecord flash l x.2
    else if l.position + 1 = headerLength + h.payloadLength then (loadFinish flash l h, x.2)
    else (l.fail, x.2)
  | .config, none | .records, none => (l.fail, x.2)
  | .passed, _ | .failed, _ => x

/-- Units of a load one after another. -/
def loadUnits (flash : List Octet) : Nat → Loader × Tables → Loader × Tables
  | 0, x => x
  | n + 1, x =>
    if x.1.phase = .passed ∨ x.1.phase = .failed then x else loadUnits flash n (loadUnit flash x)

/-- Units enough for any load: the header, the configuration, every entry of the six tables once, the end, and one
more. -/
def loadFuel : Nat := copyTotal + 4

/-- The bank a load fills: Bank A at power-up (R185), else the bank that is not ACTIVE (R187). -/
def State.loadTarget (s : State) : BankId :=
  if s.loader.activity = .powerUpLoad then .a else s.banks.active.other

/-- A load carried on by some units. -/
def State.advanceLoad (s : State) (n : Nat) : State :=
  let r := loadUnits s.flash n (s.loader, s.banks.tables s.loadTarget)
  (s.setLoader r.1).setBanks (s.banks.setTables s.loadTarget r.2)

/-- A load carried to its end (R183). Where the flash answers, the reads still to come are made. DEDUCED (log entry 20): where
it does not, a load with a read still to come fails where it stands; R183 names a flash that does not answer for the header alone.
A load that has made every read and passed every check has no read that could go unanswered: it has passed, whatever its
completion says of the flash. -/
def State.finishLoad (s : State) (flashAnswers : Bool) : State :=
  if flashAnswers then s.advanceLoad loadFuel
  else if s.loader.phase = .passed then s
  else s.setLoader s.loader.fail

/-! ## Writing the flash (R186) -/

/-- A table record of an image: table number, index, fields (R181). -/
def imageRecord (x : TableId × Nat × Record) : List Octet := nat1 x.1.number.val ++ nat2 x.2.1 ++ x.2.2.octets

/-- The adjustment octet for the sum of the octets before it: the checksum is never 65,535 (R181). Where both of its
values are allowed it is a free value (log entry 21). -/
def adjustment (sum : BitVec 16) : Octet :=
  if sum = 65535 then 1
  else if sum = 65534 then 0
  else if Config.adjustmentOctet sum.toNat then 1
  else 0

/-- The number of non-empty entries of each table. -/
def Tables.recordCounts (t : Tables) : Vector Nat 6 :=
  #v[t.styles.length, t.matrix.length, t.overlays.length, t.plans.length, t.schedules.length, t.curves.length]

/-- The payload of the image of the present configuration and the ACTIVE bank (R181, R186). -/
def State.imagePayload (s : State) : List Octet :=
  let body := s.configOctets ++ (s.banks.tables s.banks.active).records.flatMap imageRecord
  body ++ [adjustment (octetSum body)]

/-- The header of the image of the present configuration and the ACTIVE bank (R181). -/
def State.imageHeader (s : State) : ImageHeader where
  recordCounts  := (s.banks.tables s.banks.active).recordCounts
  configLength  := s.configOctets.length
  payloadLength := s.imagePayload.length
  checksum      := octetSum s.imagePayload

/-- The octets of a header before its checksum (R181). -/
def headerOctets (h : ImageHeader) : List Octet :=
  be4 formatMark ++ [1] ++ h.recordCounts.toList.flatMap nat2 ++ nat2 h.configLength ++ nat4 h.payloadLength

/-- The flash after an erase and the first `n` octet writes of a store: header octets, then payload octets behind the
checksum field, which still reads 65,535 (R186). -/
def storeWritten (stored : List Octet) (n : Nat) : List Octet :=
  if n ≤ 23 then stored.take n else stored.take 23 ++ [255, 255] ++ (stored.drop 23).take (n - 23)

/-- A store carried on by some octet writes. -/
def State.advanceStore (s : State) (n : Nat) : State :=
  let l := s.loader
  let position := min (l.position + n) l.stored.length
  (s.setLoader { l with position := position, sum := octetSum ((l.stored.drop 23).take (position - 23)) }).setFlash
    (storeWritten l.stored position)

/-- The flash once every write of a store is confirmed, the checksum last (R186). -/
def storedImage (stored : List Octet) (checksum : BitVec 16) : List Octet :=
  stored.take 23 ++ be2 checksum ++ stored.drop 23

/-- The flash after a store whose next write was not confirmed: what that octet reads as is open (log entry 21). A write
of the checksum that is not confirmed leaves the field at 65,535 (R186). -/
def storeBroken (stored : List Octet) (position free : Nat) : List Octet :=
  if position < stored.length then
    storeWritten (stored.take position ++ [Config.unconfirmedOctet free]) (position + 1)
  else storeWritten stored position

/-! ## Progress (R42, R182; log entry 4) -/

/-- A COPY BANK carried on by some entries (R42). -/
def State.advanceCopy (s : State) (n : Nat) : State :=
  match s.agent.longOp with
  | none => s
  | some op =>
    let reachedNow := min (op.copied + n) copyTotal
    let target := s.banks.active.other
    (s.setAgent { s.agent with longOp := some { op with copied := reachedNow } }).setBanks
      (s.banks.setTables target (copyTables reachedNow (s.banks.tables s.banks.active) (s.banks.tables target)))

/-- One millisecond in which the part idles (log entry 1): line time goes on, and a running copy or image transfer is
carried on by an open number of units (log entry 4). -/
def tick (s : State) : State :=
  let t := s.setLineTime (s.lineTime + 1)
  let n := Config.opPace s.free
  if s.running .copyBank then (t.advanceCopy n).setFree (s.free + 1)
  else
    match s.loader.activity with
    | .idle => t
    | .powerUpLoad | .load => (t.advanceLoad n).setFree (s.free + 1)
    | .store => (t.advanceStore n).setFree (s.free + 1)

end Sys2Proof.Machine
end

