-- ==== Sys2Proof/Machine/Restart.lean ====
section
/-! DEFINITION. The effect of an executed RESTART on every block (R188 and the rules its table names), as one event. -/

namespace Sys2Proof.Machine

/-- A station after RESTART (R24, R143): OFFLINE, its queue and counters empty, its settings and modes kept. -/
def Station.restarted (x : Station) : Station := { x with state := .offline, queue := [], counters := .zero }

/-- A slot's tag state after RESTART (R121): the next tag alone is kept. -/
def TagState.restarted (t : TagState) : TagState :=
  { next := t.next, current := 0, cancelled := 0, owned := false, readyTimer := none, cycleTimer := none }

/-- The banks after RESTART (R50): the other bank SHADOW, its load-incomplete mark set where a copy or load into it is
abandoned. -/
def State.banksRestarted (s : State) : Banks :=
  { s.banks with
    other := .shadow
    loadIncomplete := s.banks.loadIncomplete || s.running .copyBank || s.running .loadImage }

/-- The ports after RESTART (R155): all four queues empty; what a transmitter has taken and the link states stay. -/
def Ports.restarted (p : Ports) : Ports := { p with toCell := [], toUplink := [], cellOwn := [], uplinkOwn := [] }

/-- The Event Unit after RESTART (R176): flags, marker and counters clear, the enables kept. -/
def Events.restarted (e : Events) : Events := ⟨0, e.enables, false, 0, 0, 0, 0, 0, 0⟩

/-- A Mirror Channel after RESTART (R180): its Copy Lost counter alone is cleared. -/
def Channel.restarted (c : Channel) : Channel := { c with copyLost := 0 }

/-- RESTART executed; the Image Loader is idle and cleared (log entry 38) (R24, R50, R51, R75, R121, R143, R155, R169, R176, R180, R188). -/
def State.restart (s : State) : State :=
  { s with
    ports := s.ports.restarted
    tracker := { s.tracker with stations := mapVector Station.restarted s.tracker.stations, refusalLog := [] }
    banks := s.banksRestarted
    resolver := ⟨[], []⟩
    tags := mapVector TagState.restarted s.tags
    agent := { s.agent with requests := [], longOp := none }
    events := s.events.restarted
    channels := mapVector Channel.restarted s.channels
    loader := Loader.start .idle }

end Sys2Proof.Machine
end

