-- ==== Sys2Proof/Machine/Handshake.lean ====
section
/-! DEFINITION. The Handshake Engine's events (R103 to R113): READY and DONE by tag, and the expiry of the two timers. -/

namespace Sys2Proof.Machine

/-- The class of a READY or DONE by its tag (R106). -/
inductive TelegramClass where
  | matching (owner : SlotEntry)
  | stale | late | duplicate
  deriving DecidableEq, Repr

/-- The classification of R106, first row that fits; `isReady` says that the telegram is a READY. -/
def State.classify (s : State) (g : SlotId) (tag : Tag) (isReady : Bool) : TelegramClass :=
  let t := s.tagState g
  if tag = 0 then .stale
  else if tag = t.current then
    match s.tagOwner? g with
    | some e =>
      if e.outstanding then
        if s.selectWaiting g then .stale
        else if isReady && e.state == .selected && hasFault e.faults .readyRefused then .duplicate
        else .matching e
      else if e.ended then .duplicate
      else if tag = t.cancelled then (if isReady then .stale else .late)
      else .stale
    | none => .duplicate
  else if tag = t.cancelled then (if isReady then .stale else .late)
  else .stale

/-- A station's counters changed. -/
def State.countAt (s : State) (st : StationId) (f : StationCounters → StationCounters) : State :=
  s.setStation st { s.station st with counters := f (s.station st).counters }

/-- A Stale telegram counted (R107). -/
def State.countStale (s : State) (st : StationId) : State := s.countAt st fun c => { c with stale := bump c.stale }

/-- A Late telegram counted (R107). -/
def State.countLate (s : State) (st : StationId) : State := s.countAt st fun c => { c with late := bump c.late }

/-- A Duplicate telegram counted (R107). -/
def State.countDuplicate (s : State) (st : StationId) : State :=
  s.countAt st fun c => { c with duplicate := bump c.duplicate }

/-- The cycle timer of a READY LOADED (R104): running where the effective plan has a cycle maximum and the mode for Cycle
Timeout is not OFF. -/
def State.cycleExpiry (s : State) (g : SlotId) : Option LineTime :=
  let cycleMax := ((s.effectivePlan? g).map (·.cycleMax)).getD 0
  if cycleMax ≠ 0 ∧ s.mode (stationOf g) .cycleTimeout ≠ .off then some (expiryAfter s.lineTime cycleMax) else none

/-- A READY LOADED with the right program accepted (R108). -/
def State.acceptLoaded (s : State) (g : SlotId) : State :=
  (s.setTag g { s.tagState g with readyTimer := none, cycleTimer := s.cycleExpiry g }).modifyEntry g fun e =>
    { e with state := .loaded, readyAt := some s.lineTime }

/-- A refusal accepted (R109, R110): the ready timer stopped, the robot's reason kept where the READY carries one, and
Ready Refused taken under its mode. -/
def State.acceptRefused (s : State) (g : SlotId) (reason : Option Nat) : State :=
  (((s.setTag g { s.tagState g with readyTimer := none }).modifyEntry g fun e =>
    { e with refusalReason := reason.or e.refusalReason }).takeFault g .readyRefused).testRelease (stationOf g)

/-- The Handshake Engine takes a READY for a slot (R105 to R110). -/
def State.takeReady (s : State) (g : SlotId) (tag : Tag) (verdict reason program : Octet) : State :=
  if verdict ≠ 1 ∧ verdict ≠ 2 then s.frameError
  else
    match s.classify g tag true with
    | .stale => s.countStale (stationOf g)
    | .late => s.countLate (stationOf g)
    | .duplicate => s.countDuplicate (stationOf g)
    | .matching e =>
      if e.state ≠ .selected then s.countDuplicate (stationOf g)
      else if verdict = 2 then s.acceptRefused g (some reason.toNat)
      else if e.program = some program.toNat then s.acceptLoaded g
      else s.acceptRefused g none

/-- The Handshake Engine takes a DONE for a slot (R105, R106, R111 to R113); a Late one still updates the gun (R89, R107). -/
def State.takeDone (s : State) (g : SlotId) (tag : Tag) (spots quality dressed : Octet) : State :=
  if (quality ≠ 1 ∧ quality ≠ 2) ∨ 1 < dressed.toNat then s.frameError
  else
    match s.classify g tag false with
    | .stale => s.countStale (stationOf g)
    | .duplicate => s.countDuplicate (stationOf g)
    | .late =>
      let dry := (s.station (stationOf g)).dry
      (s.countLate (stationOf g)).setGun g ((s.gun g).completion dry spots.toNat (dressed == 1))
    | .matching e => s.acceptDone g e spots.toNat (quality == 2) (dressed == 1)

/-- A timer of a slot that has run out: its expiry is reached (section 5.4 of 05). -/
def timerDue (now : LineTime) : Option LineTime → Bool
  | some expiry => reached now expiry
  | none => false

/-- A timeout taken for the entry that owns the slot's tag (R103, R104, R127), and the release test of R16. -/
def State.takeTimeout (s : State) (g : SlotId) (k : FaultKind) : State :=
  if (s.tagOwner? g).isSome then (s.takeFault g k).testRelease (stationOf g) else s

/-- The ready timer of a slot expires (R103). -/
def State.readyExpires (s : State) (g : SlotId) : State :=
  if timerDue s.lineTime (s.tagState g).readyTimer then
    (s.setTag g { s.tagState g with readyTimer := none }).takeTimeout g .readyTimeout
  else s

/-- The cycle timer of a slot expires (R104). -/
def State.cycleExpires (s : State) (g : SlotId) : State :=
  if timerDue s.lineTime (s.tagState g).cycleTimer then
    (s.setTag g { s.tagState g with cycleTimer := none }).takeTimeout g .cycleTimeout
  else s

/-- READY_TIMEOUT (R103): a stopped timer, or one whose expiry line time has not reached, does not expire (log entry 3). -/
def execReadyTimeout (g : SlotId) (s : State) : Host.Outcome State Fault Refusal := event (·.readyExpires g) s

/-- CYCLE_TIMEOUT (R104). -/
def execCycleTimeout (g : SlotId) (s : State) : Host.Outcome State Fault Refusal := event (·.cycleExpires g) s

end Sys2Proof.Machine
end

