-- ==== Sys2Proof/Machine/Telegrams.lean ====
section
/-! DEFINITION. The octets of the telegrams the part sends (R189 to R192): header, SELECT, CANCEL, RELEASE, REPLY, NOTICE
and COPY, the codes of named values, and the frame that carries a telegram (R153). -/

namespace Sys2Proof.Machine

open Octets

/-! ## Codes (R190 to R192) -/

/-- NORMAL 0, REWORK 1 (R190). -/
def Origin.code : Origin → Nat
  | .normal => 0
  | .rework => 1

/-- Bank A 0, B 1 (R191, R192). -/
def BankId.code : BankId → Nat
  | .a => 0
  | .b => 1

/-- CLEAN 0, FAULTED 1, ABORTED 2 (R191). -/
def BodyOutcome.code : BodyOutcome → Nat
  | .clean => 0
  | .faulted => 1
  | .aborted => 2

/-- Slot states (R191). -/
def SlotState.code : SlotState → Nat
  | .waiting => 0
  | .selected => 1
  | .loaded => 2
  | .finished => 3
  | .faulted => 4
  | .cancelled => 5

/-- Expansion error kinds, 0 being absent (R191). -/
def expansionCode : Option ExpansionErrorKind → Nat
  | none => 0
  | some .depth => 1
  | some .length => 2
  | some .missing => 3

/-- Result codes (R192). -/
def ResultCode.code : ResultCode → Nat
  | .done => 0
  | .doneClamped => 1
  | .accepted => 2
  | .busy => 3
  | .bankBusy => 4
  | .incomplete => 5
  | .badParameter => 6
  | .badRecord => 7
  | .wrongState => 8
  | .notPermitted => 9
  | .notFound => 10

/-- Triggers (R191). -/
def Trigger.code : Trigger → Nat
  | .release => 0
  | .slotDone => 1
  | .slotFault => 2

/-! ## Bodies -/

/-- A group of a SELECT (R190). -/
def groupOctets (g : Group) : List Octet := nat1 g.schedule ++ nat1 g.spots ++ nat2 g.weldTime ++ nat2 g.current

/-- The body of a SELECT (R190). -/
def selectOctets (c : SelectContent) : List Octet :=
  be2 c.tag ++ be4 c.bodyId ++ nat1 c.program ++ [octetOfBits [c.dry, c.dressRequest, c.wearUnconfirmed]] ++
    counted groupOctets c.groups

/-- The marks octet of a slot entry (R191). -/
def marksOctet (e : SlotEntry) : Octet :=
  octetOfBits [e.warned, e.clamp, e.dressRequested, e.wearUnconfirmed, e.held]

/-- The 20 octets of a slot entry in a RELEASE and in a SLOT DONE copy (R191). -/
def entryOctets (e : SlotEntry) : List Octet :=
  nat1 e.position.val ++ nat1 e.state.code ++ nat2 e.effectivePlan ++ nat1 (e.program.getD 0) ++
    nat2 (e.plannedSpots.getD 0) ++ opt2 e.spotsWelded ++ [e.faults, marksOctet e] ++ opt2 e.refusalReason ++
    nat1 (expansionCode e.expansionError) ++ be2 (e.tag.getD 0) ++ nat1 e.overlays.length ++
    ((e.overlays ++ [0, 0, 0]).take 3).flatMap nat1

/-- The body of a RELEASE (R191). -/
def releaseOctets (r : BodyRecord) : List Octet :=
  be4 r.bodyId ++ nat1 r.station.val ++ nat1 r.origin.code ++ be2 r.style ++ opt1 r.row ++ be2 r.options ++
    nat1 r.variant ++ nat1 r.bankTag.code ++ opt1 (r.outcome.map (·.code)) ++ flag1 r.startedAt.isSome ++
    be4 r.announcedAt ++ be4 (r.startedAt.getD 0) ++ be4 (r.releasedAt.getD 0) ++ counted entryOctets r.entries

/-- The 29 event flags or enables as 4 octets, index n at bit n (R191, R192). -/
def flagOctets (f : BitVec 29) : List Octet := be4 (f.setWidth 32)

/-- The body of a NOTICE transmitted now (R174, R191). -/
def State.noticeOctets (s : State) : List Octet := s.summary :: flagOctets s.events.flags ++ be4 s.lineTime

/-- The content of a COPY, from octet 7 (R191). -/
def contentOctets : CopyContent → List Octet
  | .release r => releaseOctets r
  | .slotDone bodyId e => be4 bodyId ++ entryOctets e
  | .slotFault bodyId position kind state faults =>
    be4 bodyId ++ nat1 position.val ++ nat1 kind.number.val ++ nat1 state.code ++ [faults]

/-- The body of a COPY (R191). -/
def copyOctets (c : ChannelId) (st : StationId) (time : LineTime) (content : CopyContent) : List Octet :=
  nat1 c.val ++ nat1 content.trigger.code ++ nat1 st.val ++ be4 time ++ contentOctets content

/-- The body of a REPLY (R192). -/
def replyOctets (number : BitVec 16) (code : Octet) (result : ResultCode) (summary : Octet) (data : List Octet) :
    List Octet :=
  be2 number ++ [code] ++ nat1 result.code ++ [summary] ++ data

/-! ## Telegrams and frames (R189, R153) -/

/-- The payload of a telegram: the header, the body, and padding to the Ethernet minimum (R189). -/
def telegramPayload (kind : Octet) (v : Envelope) (body : List Octet) : List Octet :=
  let octets := [1, kind] ++ nat2 body.length ++ be2 v.destination ++ be2 v.source ++ body
  octets ++ List.replicate (46 - octets.length) 0

/-- The Ethernet broadcast address. -/
def broadcast : BitVec 48 := 0xFFFFFFFFFFFF

/-- An individual address: the individual/group bit, the lowest bit of the first octet, is 0 (PRESUMED, log entry 23). -/
def individual (a : BitVec 48) : BitVec 48 := a &&& 0xFEFFFFFFFFFF

/-- The station address of a port, fixed and individual (R153, log entry 23). -/
def stationAddress : Port → BitVec 48
  | .uplink => individual Config.uplinkAddress
  | .cell => individual Config.cellAddress

/-- The frame that carries an own telegram (R153). -/
def telegramFrame (port : Port) (kind : Octet) (v : Envelope) (body : List Octet) : Frame :=
  ⟨broadcast, stationAddress port, v.protocolType, telegramPayload kind v body⟩

/-- The frame of a telegram of the Cell own-telegram queue. -/
def CellTelegram.frame (t : CellTelegram) : Frame :=
  match t.body with
  | .select c => telegramFrame .cell 0x10 t.envelope (selectOctets c)
  | .cancel tag => telegramFrame .cell 0x11 t.envelope (be2 tag)

/-- The frame of a telegram of the Uplink own-telegram queue, transmitted now; a NOTICE takes its content, destination,
source and Protocol Type at this moment (R152, R162, R174). -/
def State.uplinkFrame (s : State) : UplinkTelegram → Frame
  | .release v r => telegramFrame .uplink 0x20 v (releaseOctets r)
  | .reply v number code result summary data =>
    telegramFrame .uplink 0x21 v (replyOctets number code result summary data)
  | .notice => telegramFrame .uplink 0x22 (s.envelopeTo s.reportNode) s.noticeOctets
  | .copy v c st time content => telegramFrame .uplink 0x23 v (copyOctets c st time content)

end Sys2Proof.Machine
end

