-- ==== Sys2Proof/Machine/Traffic.lean ====
section
/-! DEFINITION. The traffic path (R144 to R155): link states, the sorting and checks of received frames, the guard, the
forward queues, and the telegrams the part takes, each handed to the block that owns it. -/

namespace Sys2Proof.Machine

open Octets

/-! ## Links (R144) -/

/-- Whether a port's link is up. -/
def State.linkUp (s : State) : Port → Bool
  | .uplink => s.ports.uplinkUp
  | .cell => s.ports.cellUp

/-- A port's link state written. -/
def State.setLink (s : State) (port : Port) (up : Bool) : State :=
  match port with
  | .uplink => s.setPorts { s.ports with uplinkUp := up }
  | .cell => s.setPorts { s.ports with cellUp := up }

/-- LINK_UP (R144). -/
def execLinkUp (port : Port) (s : State) : Host.Outcome State Fault Refusal := event (·.setLink port true) s

/-- LINK_DOWN (R144). -/
def execLinkDown (port : Port) (s : State) : Host.Outcome State Fault Refusal := event (·.setLink port false) s

/-! ## Telegram kinds (Table 11-1, R148) -/

/-- The defined telegram kinds. -/
inductive TelegramKind where
  | announce | withdraw | request | select | cancel | ready | done | release | reply | notice | copy
  deriving DecidableEq, Repr

/-- The kind a code names (Table 11-1). -/
def kindOf? (o : Octet) : Option TelegramKind :=
  match o.toNat with
  | 0x01 => some .announce
  | 0x02 => some .withdraw
  | 0x03 => some .request
  | 0x10 => some .select
  | 0x11 => some .cancel
  | 0x12 => some .ready
  | 0x13 => some .done
  | 0x20 => some .release
  | 0x21 => some .reply
  | 0x22 => some .notice
  | 0x23 => some .copy
  | _ => none

/-- The minimum body length of a kind (Table 11-1). -/
def TelegramKind.minimumBody : TelegramKind → Nat
  | .announce => 11
  | .withdraw => 5
  | .request => 3
  | .select => 15
  | .cancel => 2
  | .ready => 5
  | .done => 5
  | .release => 28
  | .reply => 5
  | .notice => 9
  | .copy => 15

/-- Whether the port of arrival and the source node are ones R148 accepts for a kind. -/
def State.accepts (s : State) (k : TelegramKind) (port : Port) (source : Node) : Bool :=
  match k with
  | .announce | .withdraw => port == .uplink
  | .request => port == .uplink && (s.filter.controllerNode == none || s.filter.controllerNode == some source)
  | .ready | .done => port == .cell && (s.slotOfNode? source).isSome
  | .select | .cancel | .release | .reply | .notice | .copy => false

/-! ## Telegrams received (R189, R147) -/

/-- The header of a telegram, and the octets after it (R189). -/
structure Telegram where
  version     : Octet
  kind        : Octet
  bodyLength  : BitVec 16
  destination : Node
  source      : Node
  after       : List Octet
  deriving DecidableEq, Repr

/-- The telegram in a payload, or none where it is too short to hold the header (R146). -/
def readTelegram (payload : List Octet) : Option Telegram := do
  let (version, p) ← read1 payload
  let (kind, p) ← read1 p
  let (bodyLength, p) ← read2 p
  let (destination, p) ← read2 p
  let (source, p) ← read2 p
  some ⟨version, kind, bodyLength, destination, source, p⟩

/-- The Ethernet minimum payload (R189). -/
def minimumPayload : Nat := 46

/-- The octets of the header (R189). -/
def telegramHeader : Nat := 8

/-- The body of a telegram. -/
def Telegram.body (t : Telegram) : List Octet := t.after.take t.bodyLength.toNat

/-- Check 6 of R147: a source node of 0, 65535 or the own node. -/
def State.badSource (s : State) (source : Node) : Bool := !validNode source || source == s.filter.ownNode

/-- The kind of a telegram addressed to the own node, or none where one of the conditions of R147 makes it a frame
error. -/
def State.checkTelegram (s : State) (port : Port) (t : Telegram) : Option TelegramKind :=
  if t.version ≠ 1 then none
  else if t.after.length < t.bodyLength.toNat then none
  else if t.bodyLength.toNat < t.after.length ∧ minimumPayload < telegramHeader + t.after.length then none
  else
    match kindOf? t.kind with
    | none => none
    | some k =>
      if t.bodyLength.toNat < k.minimumBody then none
      else if s.badSource t.source then none
      else if s.accepts k port t.source then some k
      else none

/-! ## Telegrams taken (R148, R156) -/

/-- The Management Agent takes a REQUEST (R145, R148, R156): its source becomes the reply node; it joins the back of the
Request Queue, or is dropped where the queue holds 4 entries. -/
def State.takeRequest (s : State) (source : Node) (number : BitVec 16) (code : Octet) (params : List Octet) : State :=
  let known := s.setFilter { s.filter with replyNode := some source }
  if s.agent.requests.length < 4 then
    known.setAgent { known.agent with requests := known.agent.requests ++ [⟨source, number, code, params, false⟩] }
  else (known.setEvents { known.events with requestDrops := bump known.events.requestDrops }).setFlag .requestDropped

/-- A READY or DONE of a source node: the slot whose robot it is (R105), or a frame error. -/
def State.forRobot (s : State) (source : Node) (take : State → SlotId → State) : State :=
  match s.slotOfNode? source with
  | some g => take s g
  | none => s.frameError

/-- The body of an ANNOUNCE handed to the Body Tracker (R190). -/
def State.announceBody (s : State) (source : Node) (body : List Octet) : Option State := do
  let (bodyId, p) ← read4 body
  let (station, p) ← read1 p
  let (origin, p) ← read1 p
  let (style, p) ← read2 p
  let (options, p) ← read2 p
  let (variant, _) ← read1 p
  some (s.takeAnnounce source bodyId station origin style options variant)

/-- The body of a WITHDRAW handed to the Body Tracker (R190). -/
def State.withdrawTelegramBody (s : State) (source : Node) (body : List Octet) : Option State := do
  let (bodyId, p) ← read4 body
  let (station, _) ← read1 p
  some (s.takeWithdraw source bodyId station)

/-- The body of a REQUEST handed to the Management Agent (R192). -/
def State.requestBody (s : State) (source : Node) (body : List Octet) : Option State := do
  let (number, p) ← read2 body
  let (code, p) ← read1 p
  some (s.takeRequest source number code p)

/-- The body of a READY handed to the Handshake Engine (R190). -/
def State.readyBody (s : State) (source : Node) (body : List Octet) : Option State := do
  let (tag, p) ← read2 body
  let (verdict, p) ← read1 p
  let (reason, p) ← read1 p
  let (program, _) ← read1 p
  some (s.forRobot source fun s g => s.takeReady g tag verdict reason program)

/-- The body of a DONE handed to the Handshake Engine (R190). -/
def State.doneBody (s : State) (source : Node) (body : List Octet) : Option State := do
  let (tag, p) ← read2 body
  let (spots, p) ← read1 p
  let (quality, p) ← read1 p
  let (dressed, _) ← read1 p
  some (s.forRobot source fun s g => s.takeDone g tag spots quality dressed)

/-- A telegram that passed R147 handed to the block that owns its kind (R148). -/
def State.consume (s : State) (k : TelegramKind) (source : Node) (body : List Octet) : State :=
  let taken :=
    match k with
    | .announce => s.announceBody source body
    | .withdraw => s.withdrawTelegramBody source body
    | .request => s.requestBody source body
    | .ready => s.readyBody source body
    | .done => s.doneBody source body
    | .select | .cancel | .release | .reply | .notice | .copy => none
  taken.getD s.frameError

/-! ## Forwarding and the guard (R149, R150) -/

/-- The depth of a forward queue. -/
def forwardDepth : Nat := 32

/-- A frame that arrived at a port forwarded: at the back of the queue for its direction, or dropped and counted. -/
def State.forward (s : State) (arrival : Port) (frame : Frame) : State :=
  match arrival with
  | .uplink =>
    if s.ports.toCell.length < forwardDepth then s.setPorts { s.ports with toCell := s.ports.toCell ++ [frame] }
    else s.setEvents { s.events with forwardDropsToCell := bump s.events.forwardDropsToCell }
  | .cell =>
    if s.ports.toUplink.length < forwardDepth then s.setPorts { s.ports with toUplink := s.ports.toUplink ++ [frame] }
    else s.setEvents { s.events with forwardDropsToUplink := bump s.events.forwardDropsToUplink }

/-- Whether the guard covers a station's slots in its state (R9). -/
def StationState.guarded : StationState → Bool
  | .idle | .dispatching | .held => true
  | .offline | .manual => false

/-- Whether the guard drops a telegram for another node (R149): its kind and destination node alone are read. -/
def State.guards (s : State) (arrival : Port) (t : Telegram) : Bool :=
  s.agent.partState == .live && arrival == .uplink && (t.kind == 0x10 || t.kind == 0x11) &&
    (match s.slotOfNode? t.destination with
      | some g => (s.station (stationOf g)).state.guarded
      | none => false)

/-- A telegram dropped by the guard, counted, and Guard Drop set. -/
def State.guardDrop (s : State) : State :=
  (s.setEvents { s.events with guardDrops := bump s.events.guardDrops }).setFlag .guardDrop

/-- A frame the Telegram Filter takes (R146). -/
def State.sortFrame (s : State) (arrival : Port) (frame : Frame) : State :=
  if frame.etherType ≠ s.filter.protocolType then s.forward arrival frame
  else
    match readTelegram frame.payload with
    | none => s.forward arrival frame
    | some t =>
      if t.destination ≠ s.filter.ownNode then
        if s.guards arrival t then s.guardDrop else s.forward arrival frame
      else
        match s.checkTelegram arrival t with
        | some k => s.consume k t.source t.body
        | none => s.frameError

/-- A frame received at a port (R144): nothing while the link is down, nothing of a bad or short frame. -/
def State.receiveFrame (s : State) (port : Port) (checkGood : Bool) (frame : Frame) : State :=
  if s.linkUp port && checkGood && decide (minimumPayload ≤ frame.payload.length) then s.sortFrame port frame else s

/-- FRAME_RECEIVE (R144, R146). -/
def execFrameReceive (port : Port) (checkGood : Bool) (frame : Frame) (s : State) :
    Host.Outcome State Fault Refusal :=
  event (·.receiveFrame port checkGood frame) s

/-! ## Telegrams as commands of their own (log entry 6) -/

/-- A telegram of a source node that arrives at a port: nothing while the link is down (R144), a frame error for a source
node no telegram may have (R147) or R148 does not accept, and otherwise taken. -/
def State.fromSource (s : State) (k : TelegramKind) (port : Port) (source : Node) (take : State → State) : State :=
  if s.linkUp port then
    if s.badSource source || !s.accepts k port source then s.frameError else take s
  else s

/-- ANNOUNCE (R5, R6). -/
def execAnnounce (source : Node) (bodyId : BodyId) (station origin : Octet) (style options : BitVec 16)
    (variant : Octet) (s : State) : Host.Outcome State Fault Refusal :=
  event (fun s => s.fromSource .announce .uplink source (·.takeAnnounce source bodyId station origin style options variant))
    s

/-- WITHDRAW (R21, R22). -/
def execWithdraw (source : Node) (bodyId : BodyId) (station : Octet) (s : State) : Host.Outcome State Fault Refusal :=
  event (fun s => s.fromSource .withdraw .uplink source (·.takeWithdraw source bodyId station)) s

/-- REQUEST (R156). -/
def execRequest (source : Node) (number : BitVec 16) (code : Octet) (params : List Octet) (s : State) :
    Host.Outcome State Fault Refusal :=
  event (fun s => s.fromSource .request .uplink source (·.takeRequest source number code params)) s

/-- READY (R105 to R110). -/
def execReady (source : Node) (tag : Tag) (verdict reason program : Octet) (s : State) :
    Host.Outcome State Fault Refusal :=
  event
    (fun s => s.fromSource .ready .cell source fun s =>
      s.forRobot source fun s g => s.takeReady g tag verdict reason program)
    s

/-- DONE (R105, R111 to R113). -/
def execDone (source : Node) (tag : Tag) (spots quality dressed : Octet) (s : State) :
    Host.Outcome State Fault Refusal :=
  event
    (fun s => s.fromSource .done .cell source fun s =>
      s.forRobot source fun s g => s.takeDone g tag spots quality dressed)
    s

end Sys2Proof.Machine
end

