-- ==== Sys2Proof/Machine/Transmit.lean ====
section
/-! DEFINITION. Transmission (R153): what each Egress Arbiter takes next, and the effect of the departure of a telegram
on its owner (R20, R99, R100, R156, R174), the execution of a RESTART among them (R168). -/

namespace Sys2Proof.Machine

/-! ## The Cell port -/

/-- The front telegram of the Cell own-telegram queue, where the Cell transmitter may take it (R144, R153). -/
def State.cellFront? (s : State) : Option CellTelegram := if s.ports.cellUp then s.ports.cellOwn.head? else none

/-- A telegram of the Cell own-telegram queue taken by the transmitter. -/
def State.takeCell (s : State) (t : CellTelegram) : State :=
  s.setPorts { s.ports with cellOwn := s.ports.cellOwn.tail, cellTx := some t.frame }

/-- The ready timer of a slot as the departure of its SELECT leaves it (R99, R103). -/
def State.readyTimerAt (s : State) (g : SlotId) : Option LineTime :=
  if s.mode (stationOf g) .readyTimeout = .off then (s.tagState g).readyTimer
  else some (expiryAfter s.lineTime (s.station (stationOf g)).headLimit)

/-- The departure of the SELECT of a slot at the Handshake Engine (R99). -/
def State.selectDeparts (s : State) (g : SlotId) : State :=
  if (s.tagOwner? g).isSome then
    (s.setTag g { s.tagState g with readyTimer := s.readyTimerAt g }).modifyEntry g fun e =>
      { e with selectedAt := some s.lineTime }
  else s

/-- A SELECT at the front of the Cell own-telegram queue transmitted. -/
def State.selectTransmit (s : State) : State :=
  match s.cellFront? with
  | some t =>
    match t.body with
    | .select _ => (s.takeCell t).selectDeparts t.slot
    | .cancel _ => s
  | none => s

/-- A CANCEL at the front of the Cell own-telegram queue transmitted (R100). -/
def State.cancelTransmit (s : State) : State :=
  match s.cellFront? with
  | some t =>
    match t.body with
    | .cancel _ => s.takeCell t
    | .select _ => s
  | none => s

/-- SELECT_TRANSMIT (R99, R153). -/
def execSelectTransmit (s : State) : Host.Outcome State Fault Refusal := event (·.selectTransmit) s

/-- CANCEL_TRANSMIT (R100, R153). -/
def execCancelTransmit (s : State) : Host.Outcome State Fault Refusal := event (·.cancelTransmit) s

/-! ## The Uplink port -/

/-- The front telegram of the Uplink own-telegram queue, where the Uplink transmitter may take it (R144, R153). -/
def State.uplinkFront? (s : State) : Option UplinkTelegram :=
  if s.ports.uplinkUp then s.ports.uplinkOwn.head? else none

/-- A telegram of the Uplink own-telegram queue taken by the transmitter. -/
def State.takeUplink (s : State) (t : UplinkTelegram) : State :=
  s.setPorts { s.ports with uplinkOwn := s.ports.uplinkOwn.tail, uplinkTx := some (s.uplinkFrame t) }

/-- A RELEASE transmitted: its record returns to the pool, and a drain may end (R20, R48). -/
def State.releaseTransmit (s : State) : State :=
  match s.uplinkFront? with
  | some (.release v r) => ((s.takeUplink (.release v r)).drainTest)
  | some (.reply ..) | some .notice | some (.copy ..) | none => s

/-- The front entry of the Request Queue answered and gone with its REPLY (R156). -/
def State.dropAnswered (s : State) : State :=
  match s.agent.requests with
  | e :: rest => if e.answered then s.setAgent { s.agent with requests := rest } else s
  | [] => s

/-- The request code of RESTART (R192). -/
def restartCode : Octet := 0x54

/-- A REPLY transmitted: its entry leaves the Request Queue (R156), and a RESTART it answers is executed (R168). -/
def State.replyTransmit (s : State) : State :=
  match s.uplinkFront? with
  | some (.reply v number code result summary data) =>
    let left := (s.takeUplink (.reply v number code result summary data)).dropAnswered
    if code = restartCode then left.restart else left
  | some (.release ..) | some .notice | some (.copy ..) | none => s

/-- A NOTICE transmitted (R174): content and destination taken now, the pending-notice marker cleared. -/
def State.noticeTransmit (s : State) : State :=
  match s.uplinkFront? with
  | some .notice => (s.takeUplink .notice).setEvents { s.events with noticePending := false }
  | some (.release ..) | some (.reply ..) | some (.copy ..) | none => s

/-- A COPY transmitted. -/
def State.copyTransmit (s : State) : State :=
  match s.uplinkFront? with
  | some (.copy v c st time content) => s.takeUplink (.copy v c st time content)
  | some (.release ..) | some (.reply ..) | some .notice | none => s

/-- RELEASE_TRANSMIT (R20, R153). -/
def execReleaseTransmit (s : State) : Host.Outcome State Fault Refusal := event (·.releaseTransmit) s

/-- REPLY_TRANSMIT (R156, R153, R168). -/
def execReplyTransmit (s : State) : Host.Outcome State Fault Refusal := event (·.replyTransmit) s

/-- NOTICE_TRANSMIT (R174, R153). -/
def execNoticeTransmit (s : State) : Host.Outcome State Fault Refusal := event (·.noticeTransmit) s

/-- COPY_TRANSMIT (R153). -/
def execCopyTransmit (s : State) : Host.Outcome State Fault Refusal := event (·.copyTransmit) s

/-! ## Forwarded frames -/

/-- The front frame of the forward queue bound for a port transmitted (R150, R153): own telegrams are served first. -/
def State.forwardTransmit (s : State) (port : Port) : State :=
  match port with
  | .uplink =>
    match s.ports.toUplink with
    | f :: rest =>
      if s.ports.uplinkUp && s.ports.uplinkOwn.isEmpty then
        s.setPorts { s.ports with toUplink := rest, uplinkTx := some f }
      else s
    | [] => s
  | .cell =>
    match s.ports.toCell with
    | f :: rest =>
      if s.ports.cellUp && s.ports.cellOwn.isEmpty then s.setPorts { s.ports with toCell := rest, cellTx := some f }
      else s
    | [] => s

/-- FORWARD_TRANSMIT (R150, R153). -/
def execForwardTransmit (port : Port) (s : State) : Host.Outcome State Fault Refusal := event (·.forwardTransmit port) s

end Sys2Proof.Machine
end

