-- ==== Sys2Proof/Machine/Agent.lean ====
section
/-! DEFINITION. The Management Agent (R156 to R159): when the front waiting entry of the Request Queue is executed, and the
REPLY that answers it. -/

namespace Sys2Proof.Machine

/-- What the execution of a request leaves: the state, and the result and data of its REPLY (R158). -/
structure Answer where
  state  : State
  result : ResultCode
  data   : List Octet
  deriving DecidableEq, Repr

/-- A request refused, or answered without data: the state with a result. -/
def State.result (s : State) (r : ResultCode) : Answer := ⟨s, r, []⟩

/-- The front waiting entry of the Request Queue (R156, R157). -/
def State.frontWaiting? (s : State) : Option RequestEntry := s.agent.requests.find? fun e => !e.answered

/-- The front waiting entry answered (R156). -/
def answerFront : List RequestEntry → List RequestEntry
  | [] => []
  | e :: rest => if e.answered then e :: answerFront rest else { e with answered := true } :: rest

/-- A RESTART request answered and still to be executed (R157, R168). -/
def State.restartAwaits (s : State) : Bool := s.agent.requests.any fun e => e.answered && e.code == restartCode

/-- Whether the Management Agent executes requests now (R157): one event executes one request, so none is being executed
between events. -/
def State.mayExecute (s : State) : Bool := s.loader.activity != .powerUpLoad && !s.restartAwaits

/-- The REPLY built at the end of an execution (R158): addressed to the request's source, under the settings and the
summary the execution leaves, at the back of the Uplink own-telegram queue; its entry answered. -/
def Answer.reply (a : Answer) (e : RequestEntry) : State :=
  let s := a.state
  (s.setAgent { s.agent with requests := answerFront s.agent.requests }).pushUplink
    (.reply (s.envelopeTo e.source) e.number e.code a.result s.summary a.data)

/-- A request command (R157, log entry 5): it executes the front waiting entry where that entry's code and parameters
spell the command, and otherwise finds no occasion. -/
def State.runRequest (s : State) (i : Instr) (op : State → Answer) : State :=
  match s.frontWaiting? with
  | some e => if s.mayExecute && decodeRequest e.code e.params == i then (op s).reply e else s
  | none => s

/-- UNDEFINED_REQUEST (R157). -/
def execUndefinedRequest (code : Octet) (s : State) : Host.Outcome State Fault Refusal :=
  event (·.runRequest (.undefinedRequest code) (·.result .badParameter)) s

end Sys2Proof.Machine
end

