-- ==== Sys2Proof/Machine/ReadRequests.lean ====
section
/-! DEFINITION. The requests that read the part: READ STATUS (R165), READ BODY (R166), READ TABLE (R40), READ GUN (R80), READ
COUNTERS and READ REFUSALS (R167), with the data of their replies (R192, log entry 15). -/

namespace Sys2Proof.Machine

open Octets

/-! ## Codes by the order of the defining rule (R192) -/

/-- Station states (R9). -/
def StationState.code : StationState → Nat
  | .offline => 0
  | .idle => 1
  | .dispatching => 2
  | .held => 3
  | .manual => 4

/-- Record states (R1). -/
def RecordState.code : RecordState → Nat
  | .queued => 0
  | .active => 1
  | .releasing => 2

/-- Part states (R161). -/
def PartState.code : PartState → Nat
  | .commissioning => 0
  | .live => 1

/-- Long operations (R164). -/
def LongOpKind.code : LongOpKind → Nat
  | .copyBank => 0
  | .swap => 1
  | .storeImage => 2
  | .loadImage => 3

/-- Outcomes of the Validation Report (R45). -/
def ReportOutcome.code : ReportOutcome → Nat
  | .none => 0
  | .passed => 1
  | .failed => 2

/-- Reasons of the Validation Report (R45). -/
def ValidationReason.code : ValidationReason → Nat
  | .rowRange => 0
  | .planRange => 1
  | .planMissing => 2
  | .scheduleMissing => 3
  | .curveMissing => 4

/-- Reasons of the Refusal Log (R8). -/
def RefusalReason.code : RefusalReason → Nat
  | .queueFull => 0
  | .duplicate => 1
  | .stationOffline => 2
  | .noSuchStation => 3
  | .noTables => 4
  | .notFound => 5
  | .source => 6

/-! ## READ STATUS (R165) -/

/-- The state of a bank in the order of R32: ACTIVE, SHADOW, VALIDATING, DRAINING. -/
def Banks.stateCode (x : Banks) (i : BankId) : Nat :=
  if x.isActive i then 0
  else
    match x.other with
    | .shadow => 1
    | .validating => 2
    | .draining => 3

/-- A mark that is reported only in one state of its bank. -/
def markWhen (reported mark : Bool) : List Octet := if reported then flag1 mark else [255]

/-- One bank's part of READ STATUS. -/
def State.bankOctets (s : State) (i : BankId) : List Octet :=
  nat1 (s.banks.stateCode i) ++ markWhen (s.banks.isActive i) s.banks.validated ++
    markWhen (s.banks.isShadow i) s.banks.loadIncomplete ++ nat2 (s.tagCount i)

/-- The Validation Report (R45). DEDUCED (log entry 15): the referenced number has 2 octets whatever it numbers, a plan, a
schedule, a curve or a matrix row, with 65,535 for absent. -/
def ValidationReport.octets (r : ValidationReport) : List Octet :=
  nat1 r.outcome.code ++ opt1 (r.bank.map (·.code)) ++ opt1 (r.table.map (·.number.val)) ++ opt2 r.index ++ opt1 r.detail ++
    opt1 (r.reason.map (·.code)) ++ opt2 r.referenced ++ optTime r.endedAt

/-- One station's part of READ STATUS. -/
def State.stationOctets (s : State) (st : StationId) : List Octet :=
  nat1 (s.station st).state.code ++ flag1 (s.station st).dry ++ nat2 (s.station st).readyLimit ++
    nat1 (s.station st).queue.length ++ allKinds.flatMap fun k => nat1 (s.mode st k).code

/-- The configuration in READ STATUS. -/
def State.shapeOctets (s : State) : List Octet :=
  be2 s.filter.protocolType ++ be2 s.filter.ownNode ++ optNode s.filter.controllerNode ++ optNode s.filter.trackerNode ++
    nat1 s.tracker.stationCount ++ counted (fun st => nat1 s.tracker.slotCounts[st]) s.configuredStations ++
    counted (fun g => optNode (s.robotNode? g)) s.allConfiguredSlots

/-- The long-operation slot in READ STATUS: the operation, 0 to 3 in the order of R164, and its line time of acceptance.
DESIGN CHOICE (log entry 15): R165 and R192 do not say how a free slot is coded; it is an absent operation, 255, and an absent
line time, presence octet 0. -/
def State.longOpOctets (s : State) : List Octet :=
  opt1 (s.agent.longOp.map (·.kind.code)) ++ optTime (s.agent.longOp.map (·.acceptedAt))

/-- A link state, in the order of R144: up, down. -/
def linkOctet (up : Bool) : List Octet := if up then [0] else [1]

/-- The data of READ STATUS. DESIGN CHOICE (log entry 15): R165 says 'for each bank' and R192 gives no order, and the fields of
Bank A stand before those of Bank B; the link state of the Uplink port stands before that of the Cell port. -/
def State.statusOctets (s : State) : List Octet :=
  nat1 s.agent.partState.code ++ be4 s.lineTime ++ s.longOpOctets ++ s.bankOctets .a ++ s.bankOctets .b ++
    s.banks.report.octets ++ nat1 s.holdScope.code ++ flag1 s.sectionHold ++ allStations.flatMap s.stationOctets ++
    s.shapeOctets ++ linkOctet s.ports.uplinkUp ++ linkOctet s.ports.cellUp

/-- READ STATUS executed. -/
def State.answerReadStatus (s : State) : Answer := ⟨s, .done, s.statusOctets⟩

/-- READ_STATUS (R165). -/
def execReadStatus (s : State) : Host.Outcome State Fault Refusal := event (·.runRequest .readStatus (·.answerReadStatus)) s

/-! ## READ BODY (R166) -/

/-- A slot entry with every field of R3. DESIGN CHOICE (log entry 15): a selected at or ready at that is absent is the presence
octet 0 of R192's line times alone. -/
def SlotEntry.fieldOctets (e : SlotEntry) : List Octet :=
  nat1 e.position.val ++ nat2 e.effectivePlan ++ counted nat1 e.overlays ++ nat1 (e.program.getD 0) ++
    counted groupOctets e.groups ++ nat2 (e.plannedSpots.getD 0) ++ nat1 (expansionCode e.expansionError) ++
    flag1 e.clamp ++ flag1 e.dressRequested ++ flag1 e.wearUnconfirmed ++ nat1 e.state.code ++ [e.faults] ++
    flag1 e.held ++ flag1 e.warned ++ opt2 e.refusalReason ++ opt2 e.spotsWelded ++ be2 (e.tag.getD 0) ++
    optTime e.selectedAt ++ optTime e.readyAt

/-- A Body Record with every field of R2. DESIGN CHOICE (log entry 15): R192 takes the widths and absent values of R191 where it
gives them, and R191 gives Started at 4 octets, 0 when absent, and Released at 4 octets; R192 also puts a presence octet before
every line time that may be absent. Here each of the two is coded by the presence octet, and an absent one is that octet 0
alone, without 4 octets of 0. -/
def BodyRecord.fieldOctets (r : BodyRecord) : List Octet :=
  be4 r.bodyId ++ nat1 r.station.val ++ be2 r.style ++ opt1 r.row ++ be2 r.options ++ nat1 r.variant ++
    nat1 r.origin.code ++ nat1 r.bankTag.code ++ nat1 r.state.code ++ be4 r.announcedAt ++ optTime r.startedAt ++
    optTime r.releasedAt ++ counted SlotEntry.fieldOctets r.entries ++ flag1 r.bodyHeld ++
    opt1 (r.outcome.map (·.code))

/-- READ BODY executed. -/
def State.answerReadBody (s : State) (station position : Octet) : Answer :=
  match s.configuredStation? station with
  | none => s.result .badParameter
  | some st =>
    if 3 < position.toNat then s.result .badParameter
    else
      match (s.station st).queue[position.toNat]? with
      | none => s.result .notFound
      | some r => ⟨s, .done, r.fieldOctets⟩

/-- READ_BODY (R166). -/
def execReadBody (station position : Octet) (s : State) : Host.Outcome State Fault Refusal :=
  event (·.runRequest (.readBody station position) (·.answerReadBody station position)) s

/-! ## READ TABLE (R40) -/

/-- A table entry in the form of a WRITE TABLE record, presence octet first (R192). -/
def presenceOctets : Option Record → List Octet
  | none => [0]
  | some r => 1 :: r.octets

/-- The octets of data a REPLY can carry: the largest telegram body less its fixed fields (R189, R192). -/
def replyRoom : Nat := 1487

/-- The longest front part of some items that fits a number of octets. -/
def fitting : Nat → List (List Octet) → List (List Octet)
  | _, [] => []
  | room, x :: rest => if x.length ≤ room then x :: fitting (room - x.length) rest else []

/-- Whether a run of entries lies in a table's index range. -/
def TableId.runInRange (t : TableId) (first count : Nat) : Bool :=
  decide (count ≠ 0) && t.inRange first && t.inRange (first + count - 1)

/-- The entries of a run as READ TABLE returns them: cut to what fits one REPLY, the count first (log entry 16). -/
def Tables.runOctets (t : Tables) (k : TableId) (first count : Nat) : List Octet :=
  counted id (fitting (replyRoom - 1) ((List.range (min count 255)).map fun j => presenceOctets (t.record? k (first + j))))

/-- READ TABLE executed. -/
def State.answerReadTable (s : State) (bank table : Octet) (first count : BitVec 16) : Answer :=
  match bankOf? bank, tableOf? table with
  | some i, some k =>
    if k.runInRange first.toNat count.toNat then ⟨s, .done, (s.banks.tables i).runOctets k first.toNat count.toNat⟩
    else s.result .badParameter
  | _, _ => s.result .badParameter

/-- READ_TABLE (R40). -/
def execReadTable (bank table : Octet) (first count : BitVec 16) (s : State) : Host.Outcome State Fault Refusal :=
  event (·.runRequest (.readTable bank table first count) (·.answerReadTable bank table first count)) s

/-! ## READ GUN (R80) -/

/-- One slot's part of READ GUN. -/
def State.gunOctets (s : State) (g : SlotId) : List Octet :=
  let x := s.gun g
  nat1 g.val ++ flag1 (s.slotConfigured g) ++ nat2 x.wear ++ flag1 x.wearUnknown ++ flag1 x.dressDue ++ nat2 x.dressCount ++
    nat2 x.capChanges ++ nat2 x.dressLimit ++ nat2 x.hardLimit ++ nat2 x.ceiling

/-- READ GUN executed. -/
def State.answerReadGun (s : State) (first count : Octet) : Answer :=
  if count = 0 ∨ 32 < first.toNat + count.toNat then s.result .badParameter
  else ⟨s, .done, counted s.gunOctets ((allSlots.drop first.toNat).take count.toNat)⟩

/-- READ_GUN (R80). -/
def execReadGun (first count : Octet) (s : State) : Host.Outcome State Fault Refusal :=
  event (·.runRequest (.readGun first count) (·.answerReadGun first count)) s

/-! ## READ COUNTERS and READ REFUSALS (R167) -/

/-- The six counters of a station, in the order of R175. -/
def StationCounters.octets (c : StationCounters) : List Octet :=
  nat2 c.releasedClean ++ nat2 c.releasedFaulted ++ nat2 c.aborted ++ nat2 c.stale ++ nat2 c.late ++ nat2 c.duplicate

/-- The six counters of the part, in the order of R175. -/
def Events.counterOctets (e : Events) : List Octet :=
  nat2 e.guardDrops ++ nat2 e.frameErrors ++ nat2 e.forwardDropsToCell ++ nat2 e.forwardDropsToUplink ++
    nat2 e.requestDrops ++ nat2 e.refusals

/-- A Mirror Channel's part of READ COUNTERS (R175). -/
def Channel.counterOctets (c : Channel) : List Octet := flag1 c.armed ++ nat1 c.remaining ++ nat2 c.copyLost

/-- The data of READ COUNTERS (R175). -/
def State.counterOctets (s : State) : List Octet :=
  (allStations.flatMap fun st => (s.station st).counters.octets) ++ s.events.counterOctets ++
    allChannels.flatMap fun c => s.channels[c].counterOctets

/-- Every counter returned by READ COUNTERS set to 0 (R167, R175). -/
def State.clearCounters (s : State) : State :=
  ((s.setTracker
    { s.tracker with stations := mapVector (fun x => { x with counters := StationCounters.zero }) s.tracker.stations }).setEvents
    { s.events with
      guardDrops := 0
      frameErrors := 0
      forwardDropsToCell := 0
      forwardDropsToUplink := 0
      requestDrops := 0
      refusals := 0 }).setChannels
    (mapVector (fun c => { c with copyLost := 0 }) s.channels)

/-- READ COUNTERS executed. -/
def State.answerReadCounters (s : State) (clear : Octet) : Answer :=
  match flagOf? clear with
  | none => s.result .badParameter
  | some yes => ⟨if yes then s.clearCounters else s, .done, s.counterOctets⟩

/-- READ_COUNTERS (R167). -/
def execReadCounters (clear : Octet) (s : State) : Host.Outcome State Fault Refusal :=
  event (·.runRequest (.readCounters clear) (·.answerReadCounters clear)) s

/-- An entry of the Refusal Log (R8). -/
def RefusalEntry.octets (e : RefusalEntry) : List Octet := be4 e.bodyId ++ [e.station] ++ nat1 e.reason.code ++ be4 e.time

/-- READ REFUSALS executed. -/
def State.answerReadRefusals (s : State) : Answer := ⟨s, .done, counted RefusalEntry.octets s.tracker.refusalLog⟩

/-- READ_REFUSALS (R8, R167). -/
def execReadRefusals (s : State) : Host.Outcome State Fault Refusal :=
  event (·.runRequest .readRefusals (·.answerReadRefusals)) s

end Sys2Proof.Machine
end

