-- ==== Sys2Proof/Machine/BankRequests.lean ====
section
/-! DEFINITION. The requests on the table banks: WRITE TABLE (R36), WRITE BLOCK (R38), CLEAR BANK (R39), COPY BANK (R41, R42) and
SWAP (R43 to R47), with the completions of the last two. -/

namespace Sys2Proof.Machine

open Octets

/-- The state with one bank's tables replaced. -/
def State.setTables (s : State) (i : BankId) (t : Tables) : State := s.setBanks (s.banks.setTables i t)

/-- The code of a record check (R192). -/
def RecordCheck.code : RecordCheck → Nat
  | .range => 0
  | .order => 1
  | .duplicateCode => 2

/-- A BAD RECORD reply: the position of the first failing record and the check (R37, R192). -/
def State.badRecord (s : State) (position : Nat) (c : RecordCheck) : Answer :=
  ⟨s, .badRecord, nat2 position ++ nat1 c.code⟩

/-- The checks on the bank of a write, in their order (R36, R38, R39): not SHADOW, then a copy or load running into it. -/
def State.writeRefusal (s : State) (i : BankId) : Option ResultCode :=
  if !s.banks.isShadow i then some .bankBusy else if s.filling i then some .busy else none

/-! ## WRITE TABLE (R36) -/

/-- WRITE TABLE executed once check 1 has passed: the run's records are those given. -/
def State.writeRun (s : State) (i : BankId) (k : TableId) (first : Nat)
    (records : List (Except RecordCheck (Option Record))) : Answer :=
  match s.writeRefusal i with
  | some r => s.result r
  | none =>
    match firstFailure (s.banks.tables i) first records with
    | some (position, c) => s.badRecord position c
    | none => (s.setTables i ((s.banks.tables i).putRun k first (passedRecords records))).result .done

/-- WRITE TABLE executed. -/
def State.answerWriteTable (s : State) (bank table : Octet) (first count : BitVec 16) (records : List Octet) : Answer :=
  match bankOf? bank, tableOf? table with
  | some i, some k =>
    match readRecords k records.length records with
    | some l =>
      if k.runInRange first.toNat count.toNat && decide (l.length = count.toNat) then s.writeRun i k first.toNat l
      else s.result .badParameter
    | none => s.result .badParameter
  | _, _ => s.result .badParameter

/-- WRITE_TABLE (R36, R37). -/
def execWriteTable (bank table : Octet) (first count : BitVec 16) (records : List Octet) (s : State) :
    Host.Outcome State Fault Refusal :=
  event (·.runRequest (.writeTable bank table first count records) (·.answerWriteTable bank table first count records)) s

/-! ## WRITE BLOCK (R38) -/

/-- A rectangle of the Dispatch Matrix. -/
structure Block where
  firstRow    : Nat
  lastRow     : Nat
  firstColumn : Nat
  lastColumn  : Nat
  deriving DecidableEq, Repr

/-- Whether a rectangle lies in the matrix, its ends in order. -/
def Block.inRange (b : Block) : Bool :=
  decide (b.firstRow ≤ b.lastRow) && decide (b.lastRow ≤ 63) && decide (b.firstColumn ≤ b.lastColumn) &&
    decide (b.lastColumn ≤ 31)

/-- The width of a rectangle. -/
def Block.width (b : Block) : Nat := b.lastColumn - b.firstColumn + 1

/-- The cells of a rectangle. -/
def Block.size (b : Block) : Nat := (b.lastRow - b.firstRow + 1) * b.width

/-- The matrix index of the cell at a position of the list, row-major. -/
def Block.index (b : Block) (k : Nat) : Nat := 32 * (b.firstRow + k / b.width) + (b.firstColumn + k % b.width)

/-- Cells of 3 octets up to the end of the octets; none where octets remain that do not make a whole cell. -/
def readCells : List Octet → Option (List CheckedRecord)
  | [] => some []
  | a :: x :: y :: rest => (readCells rest).map fun l => checkCell (a ++ x).toNat y.toNat :: l
  | _ => none

/-- The cells a WRITE BLOCK of a form names for a rectangle: the single value in every cell, or the list where its count
agrees; none where a value is missing or the form undefined. DESIGN CHOICE (log entry 29): R38 does not say when an undefined
form octet is found; it is found here, with check 1. -/
def blockCells (b : Block) (form : Octet) (cells : List Octet) : Option (List CheckedRecord) :=
  match form.toNat with
  | 0 =>
    match cells with
    | a :: x :: y :: _ => some (List.replicate b.size (checkCell (a ++ x).toNat y.toNat))
    | _ => none
  | 1 => (readCells cells).bind fun l => if l.length = b.size then some l else none
  | _ => none

/-- The first failing cell of a block, its position counted from 0 (R37). -/
def cellFailure (cells : List CheckedRecord) : Option (Nat × RecordCheck) :=
  cells.zipIdx.findSome? fun x => match x.1 with | .error c => some (x.2, c) | .ok _ => none

/-- The cells of a rectangle written, from a position of the list on. -/
def Tables.putBlock (t : Tables) (b : Block) : Nat → List CheckedRecord → Tables
  | _, [] => t
  | k, .ok r :: rest => (t.putRecord .matrix (b.index k) (some r)).putBlock b (k + 1) rest
  | k, .error _ :: rest => t.putBlock b (k + 1) rest

/-- WRITE BLOCK executed once check 1 has passed. -/
def State.writeBlock (s : State) (i : BankId) (b : Block) (cells : List CheckedRecord) : Answer :=
  match s.writeRefusal i with
  | some r => s.result r
  | none =>
    match cellFailure cells with
    | some (position, c) => s.badRecord position c
    | none => (s.setTables i ((s.banks.tables i).putBlock b 0 cells)).result .done

/-- WRITE BLOCK executed. -/
def State.answerWriteBlock (s : State) (bank r1 r2 c1 c2 form : Octet) (cells : List Octet) : Answer :=
  let b : Block := ⟨r1.toNat, r2.toNat, c1.toNat, c2.toNat⟩
  match bankOf? bank, blockCells b form cells with
  | some i, some l => if b.inRange then s.writeBlock i b l else s.result .badParameter
  | _, _ => s.result .badParameter

/-- WRITE_BLOCK (R38). -/
def execWriteBlock (bank r1 r2 c1 c2 form : Octet) (cells : List Octet) (s : State) :
    Host.Outcome State Fault Refusal :=
  event (·.runRequest (.writeBlock bank r1 r2 c1 c2 form cells) (·.answerWriteBlock bank r1 r2 c1 c2 form cells)) s

/-! ## CLEAR BANK (R39) -/

/-- CLEAR BANK executed. -/
def State.answerClearBank (s : State) (bank : Octet) : Answer :=
  match bankOf? bank with
  | none => s.result .badParameter
  | some i =>
    match s.writeRefusal i with
    | some r => s.result r
    | none => (s.setBanks { s.banks.setTables i Tables.empty with loadIncomplete := false }).result .done

/-- CLEAR_BANK (R39). -/
def execClearBank (bank : Octet) (s : State) : Host.Outcome State Fault Refusal :=
  event (·.runRequest (.clearBank bank) (·.answerClearBank bank)) s

/-! ## COPY BANK (R41, R42) -/

/-- The checks that COPY BANK, SWAP and LOAD IMAGE begin with (R41, R43, R187): the slot held, then the other bank not
SHADOW. -/
def State.fillRefusal (s : State) : Option ResultCode :=
  if s.agent.longOp.isSome then some .busy else if s.banks.other ≠ .shadow then some .bankBusy else none

/-- COPY BANK executed. -/
def State.answerCopyBank (s : State) : Answer :=
  match s.fillRefusal with
  | some r => s.result r
  | none => (s.takeSlot .copyBank).result .accepted

/-- COPY_BANK (R41). -/
def execCopyBank (s : State) : Host.Outcome State Fault Refusal := event (·.runRequest .copyBank (·.answerCopyBank)) s

/-- A COPY BANK completes (R42): the target holds the source's tables, its mark is clear, Bank Copied is set, and the slot
is free. -/
def State.completeCopy (s : State) : State :=
  if s.running .copyBank then
    ((s.setBanks
      { s.banks.setTables s.banks.active.other (s.banks.tables s.banks.active) with loadIncomplete := false }).setFlag
      .bankCopied).freeSlot
  else s

/-- COPY_BANK_COMPLETE (R42). -/
def execCopyBankComplete (s : State) : Host.Outcome State Fault Refusal := event (·.completeCopy) s

/-! ## SWAP (R43 to R47) -/

/-- SWAP executed. -/
def State.answerSwap (s : State) : Answer :=
  match s.fillRefusal with
  | some r => s.result r
  | none =>
    if s.banks.loadIncomplete then s.result .incomplete
    else ((s.takeSlot .swap).setBanks { s.banks with other := .validating }).result .accepted

/-- SWAP (R43). -/
def execSwap (s : State) : Host.Outcome State Fault Refusal := event (·.runRequest .swap (·.answerSwap)) s

/-- A validation that found a failure ends (R46). -/
def State.refuseSwap (s : State) (f : ValidationFailure) : State :=
  ((s.setBanks
    { s.banks with
      other := .shadow
      loadIncomplete := false
      report := reportOf s.banks.active.other (some f) s.lineTime }).setFlag .swapRefused).freeSlot

/-- A validation that passed ends in the switch (R47). -/
def State.switchBanks (s : State) : State :=
  let switched :=
    ((s.setBanks
      { s.banks with
        active := s.banks.active.other
        other := if s.tagCount s.banks.active = 0 then .shadow else .draining
        validated := true
        loadIncomplete := false
        report := reportOf s.banks.active.other none s.lineTime }).setFlag .swapSwitched).freeSlot
  if s.banks.validated then switched else switched.testEvery

/-- The validation of a SWAP ends (R44). -/
def State.endValidation (s : State) : State :=
  if s.running .swap && s.banks.other == .validating then
    match validationFailure (s.banks.tables s.banks.active.other) with
    | some f => s.refuseSwap f
    | none => s.switchBanks
  else s

/-- VALIDATION_END (R44 to R47). -/
def execValidationEnd (s : State) : Host.Outcome State Fault Refusal := event (·.endValidation) s

end Sys2Proof.Machine
end

