-- ==== Sys2Proof/Machine/PartRequests.lean ====
section
/-! DEFINITION. The requests on the part as a whole: CLEAR EVENTS and SET EVENT ENABLE (R172, R173), SET MIRROR (R177), CONFIGURE
and GO LIVE (R162, R163), STORE IMAGE and LOAD IMAGE with their ends (R186, R187), and RESTART (R168). -/

namespace Sys2Proof.Machine

open Octets

/-! ## Events (R172, R173) -/

/-- Whether a 32-bit mask names an index above 28. -/
def namesUndefinedFlag (mask : BitVec 32) : Bool := mask.extractLsb' 29 3 != 0

/-- CLEAR EVENTS executed. -/
def State.answerClearEvents (s : State) (mask : BitVec 32) : Answer :=
  if namesUndefinedFlag mask then s.result .badParameter
  else
    ⟨s.setEvents { s.events with flags := s.events.flags &&& ~~~(mask.setWidth 29) }, .done,
      flagOctets s.events.flags ++ flagOctets s.events.enables⟩

/-- CLEAR_EVENTS (R172). -/
def execClearEvents (mask : BitVec 32) (s : State) : Host.Outcome State Fault Refusal :=
  event (·.runRequest (.clearEvents mask) (·.answerClearEvents mask)) s

/-- SET EVENT ENABLE executed. -/
def State.answerSetEventEnable (s : State) (enables : BitVec 32) : Answer :=
  if namesUndefinedFlag enables then s.result .badParameter
  else ⟨s.setEvents { s.events with enables := enables.setWidth 29 }, .done, flagOctets (enables.setWidth 29)⟩

/-- SET_EVENT_ENABLE (R173). -/
def execSetEventEnable (enables : BitVec 32) (s : State) : Host.Outcome State Fault Refusal :=
  event (·.runRequest (.setEventEnable enables) (·.answerSetEventEnable enables)) s

/-! ## SET MIRROR (R177) -/

/-- A channel's fields as the reply to SET MIRROR gives them, in the order of R177: the count as form and value. -/
def Channel.fieldOctets (c : Channel) : List Octet :=
  nat1 c.trigger.code ++ [c.stationMask.setWidth 8] ++ optNode c.destination ++
    (match c.count with | none => [1, 0] | some n => 0 :: nat1 n) ++ nat1 c.remaining ++ flag1 c.armed ++ nat2 c.copyLost

/-- A channel armed (R177). -/
def Channel.arm (c : Channel) (trigger : Trigger) (stationMask : BitVec 4) (destination : Node) (count : Option Nat) :
    Channel :=
  { c with
    trigger := trigger
    stationMask := stationMask
    destination := some destination
    count := count
    remaining := count.getD 0
    armed := true }

/-- A channel disarmed (R177). -/
def Channel.disarm (c : Channel) : Channel := { c with armed := false }

/-- A channel written, and its fields in the reply. -/
def State.mirrorWritten (s : State) (c : ChannelId) (x : Channel) : Answer :=
  ⟨s.setChannel c x, .done, x.fieldOctets⟩

/-- SET MIRROR executed. -/
def State.answerSetMirror (s : State) (channel option trigger stationMask : Octet) (destination : Node)
    (countForm count : Octet) : Answer :=
  match channelOf? channel, flagOf? option with
  | some c, some false => s.mirrorWritten c s.channels[c].disarm
  | some c, some true =>
    match triggerOf? trigger, mirrorCountOf? countForm count with
    | some t, some n =>
      let mask : BitVec 4 := stationMask.setWidth 4
      if mask = 0 ∨ validNode destination = false ∨ destination = s.filter.ownNode then s.result .badParameter
      else s.mirrorWritten c (s.channels[c].arm t mask destination n)
    | _, _ => s.result .badParameter
  | _, _ => s.result .badParameter

/-- SET_MIRROR (R177). -/
def execSetMirror (channel option trigger stationMask : Octet) (destination : Node) (countForm count : Octet)
    (s : State) : Host.Outcome State Fault Refusal :=
  event
    (·.runRequest (.setMirror channel option trigger stationMask destination countForm count)
      (·.answerSetMirror channel option trigger stationMask destination countForm count))
    s

/-! ## CONFIGURE and GO LIVE (R162, R163) -/

/-- The shape values CONFIGURE carries; a tracker of 0 means none (R192). -/
def shapeOf (protocolType : BitVec 16) (own controller tracker : Node) (stationCount : Octet)
    (slotCounts : List Octet) (robotNodes : List Node) : Shape where
  protocolType := protocolType
  own          := own
  controller   := controller
  tracker      := if tracker = 0 then none else some tracker
  stationCount := stationCount.toNat
  slotCounts   := slotCounts.map BitVec.toNat
  robotNodes   := robotNodes

/-- The checks of CONFIGURE, in their order (R162). -/
def State.configureRefusal (s : State) (x : Shape) : Option ResultCode :=
  if s.agent.partState = .live then some .notPermitted
  else if !x.inRange || !x.distinct then some .badParameter
  else if !s.quiet then some .wrongState
  else if s.running .loadImage then some .busy
  else none

/-- CONFIGURE executed. -/
def State.answerConfigure (s : State) (x : Shape) : Answer :=
  match s.configureRefusal x with
  | some r => s.result r
  | none => (s.applyShape x).result .done

/-- CONFIGURE (R162). -/
def execConfigure (protocolType : BitVec 16) (own controller tracker : Node) (stationCount : Octet)
    (slotCounts : List Octet) (robotNodes : List Node) (s : State) : Host.Outcome State Fault Refusal :=
  event
    (·.runRequest (.configure protocolType own controller tracker stationCount slotCounts robotNodes)
      (·.answerConfigure (shapeOf protocolType own controller tracker stationCount slotCounts robotNodes)))
    s

/-- GO LIVE executed. -/
def State.answerGoLive (s : State) : Answer :=
  if s.agent.partState = .live then s.result .notPermitted
  else if s.banks.validated = false ∨ s.tracker.stationCount = 0 then s.result .wrongState
  else (s.setAgent { s.agent with partState := .live }).result .done

/-- GO_LIVE (R163). -/
def execGoLive (s : State) : Host.Outcome State Fault Refusal := event (·.runRequest .goLive (·.answerGoLive)) s

/-! ## STORE IMAGE (R186) -/

/-- The Image Loader at the start of a store: the header and payload of the present configuration and ACTIVE bank. -/
def State.storeLoader (s : State) : Loader :=
  { Loader.start .store with header := some s.imageHeader, stored := headerOctets s.imageHeader ++ s.imagePayload }

/-- STORE IMAGE executed: the configuration copied and the image area erased (log entry 21). -/
def State.answerStoreImage (s : State) : Answer :=
  if s.agent.longOp.isSome then s.result .busy
  else (((s.takeSlot .storeImage).setLoader s.storeLoader).setFlash []).result .accepted

/-- STORE_IMAGE (R186). -/
def execStoreImage (s : State) : Host.Outcome State Fault Refusal := event (·.runRequest .storeImage (·.answerStoreImage)) s

/-- The Image Loader idle again and the long-operation slot free. DESIGN CHOICE (log entry 38): the header, running sum and
record counts of an idle loader are cleared. -/
def State.endImage (s : State) : State := (s.setLoader (Loader.start .idle)).freeSlot

/-- The checksum field of the image being stored: the sum of its payload octets (R181). -/
def Loader.storedChecksum (l : Loader) : BitVec 16 := octetSum (l.stored.drop 23)

/-- A STORE IMAGE ends (R186): every write confirmed, or the next write not confirmed. -/
def State.endStore (s : State) (confirmed : Bool) : State :=
  if s.running .storeImage then
    if confirmed then
      ((s.setFlash (storedImage s.loader.stored s.loader.storedChecksum)).setFlag .imageStored).endImage
    else
      (((s.setFlash (storeBroken s.loader.stored s.loader.position s.free)).setFree (s.free + 1)).setFlag
        .imageFault).endImage
  else s

/-- STORE_IMAGE_END (R186). -/
def execStoreImageEnd (confirmed : Bool) (s : State) : Host.Outcome State Fault Refusal := event (·.endStore confirmed) s

/-! ## LOAD IMAGE (R187) -/

/-- LOAD IMAGE executed. -/
def State.answerLoadImage (s : State) : Answer :=
  match s.fillRefusal with
  | some r => s.result r
  | none =>
    (((s.takeSlot .loadImage).setTables s.banks.active.other Tables.empty).setLoader (Loader.start .load)).result .accepted

/-- LOAD_IMAGE (R187). -/
def execLoadImage (s : State) : Host.Outcome State Fault Refusal := event (·.runRequest .loadImage (·.answerLoadImage)) s

/-- The mark of the SHADOW bank written (R34). -/
def State.setLoadIncomplete (s : State) (mark : Bool) : State := s.setBanks { s.banks with loadIncomplete := mark }

/-- The configuration part of a LOAD IMAGE that passed, applied as R184 allows; a Section Hold that its hold scope ends has
every station tested (log entry 18). -/
def State.applyLoaded (s : State) : State :=
  match s.agent.partState, s.loader.config with
  | .commissioning, some c => testAfterHold s (s.applyConfig c s.quiet) (s.applyConfig c s.quiet)
  | .commissioning, none | .live, _ => s

/-- A LOAD IMAGE read to its end ends (R187). -/
def State.loadEnds (s : State) : State :=
  if s.loader.phase = .passed then ((s.applyLoaded.setLoadIncomplete false).setFlag .imageLoaded).endImage
  else ((s.setLoadIncomplete true).setFlag .imageFault).endImage

/-- A LOAD IMAGE ends (R187). -/
def State.endLoad (s : State) (flashAnswers : Bool) : State :=
  if s.running .loadImage then (s.finishLoad flashAnswers).loadEnds else s

/-- LOAD_IMAGE_END (R187). -/
def execLoadImageEnd (flashAnswers : Bool) (s : State) : Host.Outcome State Fault Refusal := event (·.endLoad flashAnswers) s

/-! ## RESTART (R168) -/

/-- RESTART (R168): answered DONE; the transmission of its REPLY executes it (R153). -/
def execRestart (s : State) : Host.Outcome State Fault Refusal := event (·.runRequest .restart (·.result .done)) s

end Sys2Proof.Machine
end

