-- ==== Sys2Proof/Machine/Power.lean ====
section
/-! DEFINITION. Power-up: the reset of every block and the end of the power-up load (R185). -/

namespace Sys2Proof.Machine

/-- A power-up reset: every block at its power-up values (R185), but for what stands outside the part's power: the link
states (log entry 11), the flash (log entry 12), and the model's own queue and free-value count (log entry 30). -/
def State.powerUp (s : State) : State :=
  { State.reset with
    pending := s.pending
    free := s.free
    flash := s.flash
    ports := { State.reset.ports with uplinkUp := s.ports.uplinkUp, cellUp := s.ports.cellUp } }

/-- POWER_UP_RESET (R185). -/
def execPowerUpReset (s : State) : Host.Outcome State Fault Refusal := event (·.powerUp) s

/-- Bank A emptied after a power-up load that failed (R49, R185). -/
def State.powerUpFails (s : State) (report : ValidationReport) : State :=
  (s.setBanks { s.banks.setTables .a Tables.empty with validated := false, report := report }).setFlag .imageFault

/-- Bank A loaded and validated (R49, R185): the configuration part applied in full. -/
def State.powerUpPasses (s : State) (report : ValidationReport) : State :=
  let marked := s.setBanks { s.banks with validated := true, report := report }
  (match s.loader.config with
    | some c => marked.applyConfig c true
    | none => marked).setFlag .imageLoaded

/-- A power-up load read to its end ends (R185): checks passed, then Bank A validated. -/
def State.powerUpEnds (s : State) : State :=
  if s.loader.phase = .passed then
    match validationFailure s.banks.tablesA with
    | none => s.powerUpPasses (reportOf .a none s.lineTime)
    | some f => s.powerUpFails (reportOf .a (some f) s.lineTime)
  else s.powerUpFails s.banks.report

/-- The power-up load ends (R185), and the Image Loader is idle and cleared (log entry 38). -/
def State.endPowerUpLoad (s : State) (flashAnswers : Bool) : State :=
  if s.loader.activity = .powerUpLoad then (s.finishLoad flashAnswers).powerUpEnds.setLoader (Loader.start .idle)
  else s

/-- POWER_UP_LOAD_END (R49, R185). -/
def execPowerUpLoadEnd (flashAnswers : Bool) (s : State) : Host.Outcome State Fault Refusal :=
  event (·.endPowerUpLoad flashAnswers) s

end Sys2Proof.Machine
end

