-- ==== Sys2Proof/Machine/StationRequests.lean ====
section
/-! DEFINITION. The requests on stations, bodies and guns: SET STATION (R10, R11), SET FAULT MODES (R124), SET HOLD SCOPE
(R133), CLEAR STATION (R135), WITHDRAW BODY (R21), SET GUN, SET WEAR and RESET WEAR (R76 to R79). -/

namespace Sys2Proof.Machine

open Octets

/-! ## SET STATION (R10, R11) -/

/-- A move of a station into IDLE tests its head start condition (R10, R12). -/
def State.testIfIdled (s : State) (st : StationId) (former : StationState) : State :=
  if (s.station st).state = .idle ∧ former ≠ .idle then s.testStation st else s

/-- The checks of SET STATION on a configured station (R10). -/
def State.stationRefusal (s : State) (st : StationId) (mode : StationState) (dry : Bool) : Option ResultCode :=
  let x := s.station st
  if x.state = .dispatching ∨ x.state = .held then some .wrongState
  else if s.agent.partState = .commissioning ∧ mode ≠ .offline ∧ dry = false then some .notPermitted
  else none

/-- SET STATION carried out (R10, R11): the settings written, the station moved, and the head start condition tested. -/
def State.setStationMode (s : State) (st : StationId) (mode : StationState) (dry : Bool) (limit : Nat) : State :=
  (s.setStation st { s.station st with state := mode, dry := dry, readyLimit := clampReady limit }).testIfIdled st
    (s.station st).state

/-- SET STATION executed. DESIGN CHOICE (log entry 29): an undefined Dry octet is tested together with station and mode, before
the station's state and the part state. -/
def State.answerSetStation (s : State) (station mode dry : Octet) (readyLimit : BitVec 16) : Answer :=
  match s.configuredStation? station, stationModeOf? mode, flagOf? dry with
  | some st, some m, some d =>
    match s.stationRefusal st m d with
    | some r => s.result r
    | none =>
      let limit := clampReady readyLimit.toNat
      let moved := s.setStationMode st m d readyLimit.toNat
      if limit = readyLimit.toNat then moved.result .done
      else ⟨moved, .doneClamped, [mode, dry] ++ nat2 limit⟩
  | _, _, _ => s.result .badParameter

/-- SET_STATION (R10, R11). -/
def execSetStation (station mode dry : Octet) (readyLimit : BitVec 16) (s : State) :
    Host.Outcome State Fault Refusal :=
  event (·.runRequest (.setStation station mode dry readyLimit) (·.answerSetStation station mode dry readyLimit)) s

/-! ## SET FAULT MODES (R124) -/

/-- The pairs of SET FAULT MODES as kinds and modes, or none where one names an undefined kind or mode. -/
def modePairs? (pairs : List (Octet × Octet)) : Option (List (FaultKind × FaultMode)) :=
  pairs.mapM fun x => do
    let k ← faultKindOf? x.1
    let m ← modeOf? x.2
    some (k, m)

/-- Whether a list of pairs is one SET FAULT MODES takes: 1 to 9 pairs, each mode allowed, no kind twice. -/
def pairsAllowed (pairs : List (FaultKind × FaultMode)) : Bool :=
  decide (1 ≤ pairs.length) && decide (pairs.length ≤ 9) && (pairs.all fun x => x.1.allows x.2) &&
    decide (pairs.map (·.1)).Nodup

/-- Modes with some pairs written. -/
def writeModes (modes : Vector FaultMode 9) (pairs : List (FaultKind × FaultMode)) : Vector FaultMode 9 :=
  pairs.foldl (fun m x => m.set x.1.number x.2) modes

/-- SET FAULT MODES executed. -/
def State.answerSetFaultModes (s : State) (station : Octet) (pairs : List (Octet × Octet)) : Answer :=
  match stationOf? station, modePairs? pairs with
  | some st, some l =>
    if pairsAllowed l then
      (s.setStation st { s.station st with modes := writeModes (s.station st).modes l }).result .done
    else s.result .badParameter
  | _, _ => s.result .badParameter

/-- SET_FAULT_MODES (R124). -/
def execSetFaultModes (station : Octet) (pairs : List (Octet × Octet)) (s : State) :
    Host.Outcome State Fault Refusal :=
  event (·.runRequest (.setFaultModes station pairs) (·.answerSetFaultModes station pairs)) s

/-! ## SET HOLD SCOPE (R133, R134) -/

/-- SET HOLD SCOPE executed. -/
def State.answerSetHoldScope (s : State) (scope : Octet) : Answer :=
  match scopeOf? scope with
  | none => s.result .badParameter
  | some h => (testAfterHold s (s.setScope h) (s.setScope h)).result .done

/-- SET_HOLD_SCOPE (R133). -/
def execSetHoldScope (scope : Octet) (s : State) : Host.Outcome State Fault Refusal :=
  event (·.runRequest (.setHoldScope scope) (·.answerSetHoldScope scope)) s

/-! ## CLEAR STATION (R135) and WITHDRAW BODY (R21) -/

/-- CLEAR STATION executed. -/
def State.answerClearStation (s : State) (station option : Octet) : Answer :=
  match s.configuredStation? station, clearOptionOf? option with
  | some st, some o =>
    if (s.station st).state = .held then ⟨(s.clearStation st o).1, .done, nat1 (s.clearStation st o).2.code⟩
    else s.result .wrongState
  | _, _ => s.result .badParameter

/-- CLEAR_STATION (R135 to R141). -/
def execClearStation (station option : Octet) (s : State) : Host.Outcome State Fault Refusal :=
  event (·.runRequest (.clearStation station option) (·.answerClearStation station option)) s

/-- The result of a WITHDRAW BODY (R21). -/
def withdrawResult : Option RefusalReason → ResultCode
  | none => .done
  | some .notFound => .notFound
  | some .queueFull | some .duplicate | some .stationOffline | some .noSuchStation | some .noTables | some .source =>
    .badParameter

/-- WITHDRAW BODY executed: not tested for Source (R21). -/
def State.answerWithdrawBody (s : State) (bodyId : BodyId) (station : Octet) : Answer :=
  (s.withdrawBody bodyId station).1.result (withdrawResult (s.withdrawBody bodyId station).2)

/-- WITHDRAW_BODY (R21, R22). -/
def execWithdrawBody (bodyId : BodyId) (station : Octet) (s : State) : Host.Outcome State Fault Refusal :=
  event (·.runRequest (.withdrawBody bodyId station) (·.answerWithdrawBody bodyId station)) s

/-! ## The gun requests (R76 to R79) -/

/-- Whether a selection to a gun is outstanding at its robot (R79, check 2). -/
def State.gunBusy (s : State) (g : SlotId) : Bool := (s.entry? g).any (·.outstanding)

/-- A gun request that passes the checks of R79. -/
def State.onGun (s : State) (slot : Octet) (op : SlotId → Answer) : Answer :=
  match slotOf? slot with
  | none => s.result .badParameter
  | some g => if s.gunBusy g then s.result .busy else op g

/-- The Gun Table entry after SET GUN with limits in range (R76). -/
def Gun.set (x : Gun) (l : GunLimits) : Gun :=
  { x.withLimits l with dressDue := x.dressDue && decide (l.dressLimit ≤ x.wear) }

/-- SET GUN executed. -/
def State.answerSetGun (s : State) (slot : Octet) (dressLimit hardLimit ceiling : BitVec 16) : Answer :=
  s.onGun slot fun g =>
    let given : GunLimits := ⟨dressLimit.toNat, hardLimit.toNat, ceiling.toNat⟩
    let stored := clampLimits given
    let written := s.setGun g ((s.gun g).set stored)
    if stored = given then written.result .done
    else ⟨written, .doneClamped, nat2 stored.dressLimit ++ nat2 stored.hardLimit ++ nat2 stored.ceiling⟩

/-- SET_GUN (R76). -/
def execSetGun (slot : Octet) (dressLimit hardLimit ceiling : BitVec 16) (s : State) :
    Host.Outcome State Fault Refusal :=
  event
    (·.runRequest (.setGun slot dressLimit hardLimit ceiling) (·.answerSetGun slot dressLimit hardLimit ceiling)) s

/-- The Gun Table entry after SET WEAR (R77). -/
def Gun.setWear (x : Gun) (wear : Nat) : Gun :=
  { x with wear := wear, wearUnknown := false, dressDue := x.dressDue && decide (x.dressLimit ≤ wear) }

/-- SET WEAR executed. -/
def State.answerSetWear (s : State) (slot : Octet) (wear : BitVec 16) : Answer :=
  s.onGun slot fun g => (s.setGun g ((s.gun g).setWear wear.toNat)).result .done

/-- SET_WEAR (R77). -/
def execSetWear (slot : Octet) (wear : BitVec 16) (s : State) : Host.Outcome State Fault Refusal :=
  event (·.runRequest (.setWear slot wear) (·.answerSetWear slot wear)) s

/-- The Gun Table entry after RESET WEAR (R78). -/
def Gun.resetWear (x : Gun) : Gun :=
  { x with wear := 0, wearUnknown := false, dressDue := false, capChanges := bump x.capChanges }

/-- RESET WEAR executed. -/
def State.answerResetWear (s : State) (slot : Octet) : Answer :=
  s.onGun slot fun g => (s.setGun g (s.gun g).resetWear).result .done

/-- RESET_WEAR (R78). -/
def execResetWear (slot : Octet) (s : State) : Host.Outcome State Fault Refusal :=
  event (·.runRequest (.resetWear slot) (·.answerResetWear slot)) s

end Sys2Proof.Machine
end

