-- ==== Sys2Proof/Machine/Dispatch.lean ====
section
/-! DEFINITION. The meaning of every command: one arm per constructor of `Instr`. -/

namespace Sys2Proof.Machine

/-- The effect of a command on everything but the queue of commands. -/
def exec (i : Instr) (s : State) : Host.Outcome State Fault Refusal :=
  match i with
  | .powerUpReset => Sys2Proof.Machine.execPowerUpReset s
  | .powerUpLoadEnd flashAnswers => Sys2Proof.Machine.execPowerUpLoadEnd flashAnswers s
  | .linkUp port => Sys2Proof.Machine.execLinkUp port s
  | .linkDown port => Sys2Proof.Machine.execLinkDown port s
  | .frameReceive port checkGood frame => Sys2Proof.Machine.execFrameReceive port checkGood frame s
  | .announce source bodyId station origin style options variant => Sys2Proof.Machine.execAnnounce source bodyId station origin style options variant s
  | .withdraw source bodyId station => Sys2Proof.Machine.execWithdraw source bodyId station s
  | .request source number code params => Sys2Proof.Machine.execRequest source number code params s
  | .ready source tag verdict reason program => Sys2Proof.Machine.execReady source tag verdict reason program s
  | .done source tag spots quality dressed => Sys2Proof.Machine.execDone source tag spots quality dressed s
  | .readyTimeout slot => Sys2Proof.Machine.execReadyTimeout slot s
  | .cycleTimeout slot => Sys2Proof.Machine.execCycleTimeout slot s
  | .selectTransmit => Sys2Proof.Machine.execSelectTransmit s
  | .cancelTransmit => Sys2Proof.Machine.execCancelTransmit s
  | .releaseTransmit => Sys2Proof.Machine.execReleaseTransmit s
  | .replyTransmit => Sys2Proof.Machine.execReplyTransmit s
  | .noticeTransmit => Sys2Proof.Machine.execNoticeTransmit s
  | .copyTransmit => Sys2Proof.Machine.execCopyTransmit s
  | .forwardTransmit port => Sys2Proof.Machine.execForwardTransmit port s
  | .copyBankComplete => Sys2Proof.Machine.execCopyBankComplete s
  | .validationEnd => Sys2Proof.Machine.execValidationEnd s
  | .storeImageEnd confirmed => Sys2Proof.Machine.execStoreImageEnd confirmed s
  | .loadImageEnd flashAnswers => Sys2Proof.Machine.execLoadImageEnd flashAnswers s
  | .undefinedRequest code => Sys2Proof.Machine.execUndefinedRequest code s
  | .readStatus => Sys2Proof.Machine.execReadStatus s
  | .readBody station position => Sys2Proof.Machine.execReadBody station position s
  | .readTable bank table first count => Sys2Proof.Machine.execReadTable bank table first count s
  | .readGun first count => Sys2Proof.Machine.execReadGun first count s
  | .readCounters clear => Sys2Proof.Machine.execReadCounters clear s
  | .readRefusals => Sys2Proof.Machine.execReadRefusals s
  | .writeTable bank table first count records => Sys2Proof.Machine.execWriteTable bank table first count records s
  | .writeBlock bank r1 r2 c1 c2 form cells => Sys2Proof.Machine.execWriteBlock bank r1 r2 c1 c2 form cells s
  | .clearBank bank => Sys2Proof.Machine.execClearBank bank s
  | .copyBank => Sys2Proof.Machine.execCopyBank s
  | .swap => Sys2Proof.Machine.execSwap s
  | .setStation station mode dry readyLimit => Sys2Proof.Machine.execSetStation station mode dry readyLimit s
  | .setFaultModes station pairs => Sys2Proof.Machine.execSetFaultModes station pairs s
  | .setHoldScope scope => Sys2Proof.Machine.execSetHoldScope scope s
  | .clearStation station option => Sys2Proof.Machine.execClearStation station option s
  | .withdrawBody bodyId station => Sys2Proof.Machine.execWithdrawBody bodyId station s
  | .setGun slot dressLimit hardLimit ceiling => Sys2Proof.Machine.execSetGun slot dressLimit hardLimit ceiling s
  | .setWear slot wear => Sys2Proof.Machine.execSetWear slot wear s
  | .resetWear slot => Sys2Proof.Machine.execResetWear slot s
  | .clearEvents mask => Sys2Proof.Machine.execClearEvents mask s
  | .setEventEnable enables => Sys2Proof.Machine.execSetEventEnable enables s
  | .setMirror channel option trigger stationMask destination countForm count => Sys2Proof.Machine.execSetMirror channel option trigger stationMask destination countForm count s
  | .configure protocolType own controller tracker stationCount slotCounts robotNodes => Sys2Proof.Machine.execConfigure protocolType own controller tracker stationCount slotCounts robotNodes s
  | .goLive => Sys2Proof.Machine.execGoLive s
  | .storeImage => Sys2Proof.Machine.execStoreImage s
  | .loadImage => Sys2Proof.Machine.execLoadImage s
  | .restart => Sys2Proof.Machine.execRestart s

end Sys2Proof.Machine
end

