-- ==== Sys2Proof/Safety.lean ====
section
/-! DEFINITION. The terms the statements about the part use: when a request is executed and what its REPLY adds to a state,
when no Mirror Channel takes a record, and the properties that hold of every sound state. -/

namespace Sys2Proof.Machine

/-! ## Requests and records -/

/-- The Management Agent executes the request entry `e`, which spells the command `i` (R157). -/
abbrev State.executes (s : State) (i : Instr) (e : RequestEntry) : Prop :=
  s.frontWaiting? = some e ∧ s.loader.activity ≠ .powerUpLoad ∧ s.restartAwaits = false ∧
    decodeRequest e.code e.params = i

/-- A state with the request entry `e` answered: its REPLY behind every other own telegram of the Uplink port, built under
the settings and with the Summary Octet of that state (R158). -/
def State.replied (s : State) (e : RequestEntry) (r : ResultCode) (data : List Octet) : State :=
  { s with
    agent := { s.agent with requests := answerFront s.agent.requests }
    ports :=
      { s.ports with
        uplinkOwn :=
          s.ports.uplinkOwn ++
            [.reply ⟨e.source, s.filter.ownNode, s.filter.protocolType⟩ e.number e.code r s.summary data] } }

/-- No Mirror Channel matches a record of a kind at a station (R178). -/
abbrev State.unmirrored (s : State) (st : StationId) (k : Trigger) : Prop :=
  ∀ c : ChannelId, ¬(s.channels[c].armed = true ∧ s.channels[c].trigger = k ∧
    s.channels[c].stationMask.getLsbD st.val = true)

/-- The slot handshake's premises: the Cell link is up, `source` is the robot node of slot `g`, its tag is the slot's current
tag, and the tag's owner is the head's entry `e`, whose SELECT has left the port. -/
abbrev State.answersFor (s : State) (source : Node) (tag : Tag) (g : SlotId) (e : SlotEntry) : Prop :=
  s.ports.cellUp = true ∧ source ≠ 0 ∧ source ≠ 65535 ∧ source ≠ s.filter.ownNode ∧ s.slotOfNode? source = some g ∧
    tag ≠ 0 ∧ tag = (s.tagState g).current ∧ s.tagOwner? g = some e ∧ s.selectWaiting g = false

/-! ## Announcements (R5, R8) -/

/-- A well-formed ANNOUNCE from a source that may send one reaches the Body Tracker: the Uplink link is up and no field is one of
those R5 discards as malformed. -/
abbrev State.hearsAnnounce (s : State) (source : Node) (bodyId : BodyId) (origin : Octet) (style : BitVec 16) : Prop :=
  s.ports.uplinkUp = true ∧ source ≠ 0 ∧ source ≠ 65535 ∧ source ≠ s.filter.ownNode ∧
    bodyId ≠ 0 ∧ style ≠ 0 ∧ style ≠ 65535 ∧ origin.toNat ≤ 1

/-- A source is the configured controller node or the configured tracker node (R5). -/
abbrev State.knowsSource (s : State) (source : Node) : Prop :=
  s.filter.controllerNode = some source ∨ s.filter.trackerNode = some source

/-- What a refused announcement leaves (R8): an entry at the end of the Refusal Log, which keeps the last four, the refusals
counter, Announce Refused and the NOTICE it may call for, and nothing else. -/
def State.announcementRefused (s : State) (bodyId : BodyId) (station : Octet) (reason : RefusalReason) : State :=
  settleNotice s
    { s with
      tracker :=
        { s.tracker with
          refusalLog :=
            (s.tracker.refusalLog ++ [RefusalEntry.mk bodyId station reason s.lineTime]).drop
              (s.tracker.refusalLog.length + 1 - 4) }
      events :=
        { s.events with
          refusals := bump s.events.refusals
          flags := s.events.flags ||| (1#29 <<< 15) } }

/-! ## Result records (R178) -/

/-- A result record offered to the eight Mirror Channels, in ascending number (R178). -/
def State.offered (s : State) (st : StationId) (content : CopyContent) : State :=
  ([0, 1, 2, 3, 4, 5, 6, 7] : List ChannelId).foldl (offerCopy st content) s

/-- The SLOT FAULT record of a kind offered, with the head's entry at the slot as it stands once the mode has acted (R178; log
entry 17). -/
def State.faultOffered (s : State) (g : SlotId) (k : FaultKind) : State :=
  match s.head? (stationOf g), s.entry? g with
  | some r, some e => s.offered (stationOf g) (.slotFault r.bodyId e.position k e.state e.faults)
  | _, _ => s

/-- The SLOT DONE record of the head's entry at a slot offered, as the entry stands once it has ended (R113, R178). -/
def State.doneOffered (s : State) (g : SlotId) : State :=
  match s.head? (stationOf g), s.entry? g with
  | some r, some e => s.offered (stationOf g) (.slotDone r.bodyId e)
  | _, _ => s

/-! ## What an expansion produces (R59 to R62) -/

/-- The group a GROUP step produces (R62): the step's schedule number and spots, the entry of that schedule, and the breakpoints
of the curve above 0 it names. -/
inductive GroupOf (t : Tables) (schedule spots : Nat) : ExpandedGroup → Prop where
  | plain {entry} : t.schedule? schedule = some entry → entry.curve = 0 → GroupOf t schedule spots ⟨schedule, spots, entry, []⟩
  | curved {entry points} : t.schedule? schedule = some entry → entry.curve ≠ 0 → t.curve? entry.curve = some points →
      GroupOf t schedule spots ⟨schedule, spots, entry, points⟩

/-- The groups that the steps of a plan standing at a depth produce, when no test fails (R59, R60): a GROUP step its one group, a
CALL at depth 0 to 3 those of the called plan's steps one deeper, and after either the groups of the steps behind it. -/
inductive LaidOut (t : Tables) : Nat → List PlanStep → List ExpandedGroup → Prop where
  | done {depth} : LaidOut t depth [] []
  | group {depth schedule spots rest x groups} : GroupOf t schedule spots x → LaidOut t depth rest groups →
      LaidOut t depth (.group schedule spots :: rest) (x :: groups)
  | call {depth plan rest entry inner groups} : depth ≤ 3 → t.plan? plan = some entry →
      LaidOut t (depth + 1) entry.steps inner → LaidOut t depth rest groups →
      LaidOut t depth (.call plan :: rest) (inner ++ groups)

/-- The first test that fails when the steps of a plan standing at a depth are taken with some groups in the buffer (R60, R61,
R62). -/
inductive StepsFail (t : Tables) : Nat → List PlanStep → Nat → ExpansionErrorKind → Prop where
  | length {depth schedule spots rest held} : 24 ≤ held → StepsFail t depth (.group schedule spots :: rest) held .length
  | noGroup {depth schedule spots rest held} : held < 24 → (∀ x, ¬GroupOf t schedule spots x) →
      StepsFail t depth (.group schedule spots :: rest) held .missing
  | depth {plan rest held} : StepsFail t 4 (.call plan :: rest) held .depth
  | noPlan {depth plan rest held} : depth ≤ 3 → t.plan? plan = none → StepsFail t depth (.call plan :: rest) held .missing
  | inside {depth plan rest held entry kind} : depth ≤ 3 → t.plan? plan = some entry →
      StepsFail t (depth + 1) entry.steps held kind → StepsFail t depth (.call plan :: rest) held kind
  | afterGroup {depth schedule spots rest held x kind} : held < 24 → GroupOf t schedule spots x →
      StepsFail t depth rest (held + 1) kind → StepsFail t depth (.group schedule spots :: rest) held kind
  | afterCall {depth plan rest held entry inner kind} : depth ≤ 3 → t.plan? plan = some entry →
      LaidOut t (depth + 1) entry.steps inner → held + inner.length ≤ 24 → StepsFail t depth rest (held + inner.length) kind →
      StepsFail t depth (.call plan :: rest) held kind

/-! ## What selections, faults and releases leave -/

/-- A state with some more event flags set (R170). -/
def State.flagged (s : State) (mask : BitVec 29) : State :=
  { s with events := { s.events with flags := s.events.flags ||| mask } }

/-- Another entry of the head at a slot's station has not ended, so that the release condition does not hold (R16). -/
abbrev State.othersWork (s : State) (g : SlotId) : Prop :=
  ∃ r, s.head? (stationOf g) = some r ∧ ∃ e ∈ r.entries, e.position ≠ positionOf g ∧ e.ended = false

/-- A slot's current selection called off (R100): its SELECT dropped where it still waits, else the CANCEL of its tag placed at
the back of the Cell own-telegram queue; the tag cancelled, no current tag, no owner, both timers stopped. -/
def State.calledOff (s : State) (g : SlotId) : State :=
  let t := s.tagState g
  { s with
    ports := { s.ports with
      cellOwn :=
        if s.selectWaiting g = true then s.ports.cellOwn.filter fun x => x.slot ≠ g
        else s.ports.cellOwn ++
          [⟨g, ⟨(s.robotNode? g).getD 0, s.filter.ownNode, s.filter.protocolType⟩, .cancel t.current⟩] }
    tags := s.tags.set g
      { next := t.next, current := 0, cancelled := t.current, owned := false, readyTimer := none, cycleTimer := none } }

/-- A slot fault of a kind taken at a slot's entry under the station's mode (R125 to R127, R132): under HOLD the entry held, a
DISPATCHING station HELD, and Station Held set; under WARN the entry warned and Station Warning set; under PASS the selection
called off and the entry FAULTED; and under each the kind in the entry's fault set, and the SLOT FAULT record offered. Under
OFF nothing. -/
def State.faulted (s : State) (g : SlotId) (k : FaultKind) : State :=
  let st := stationOf g
  let x := s.station st
  let marked := fun (f : SlotEntry → SlotEntry) => x.modifyHead fun r => r.modifyEntry (positionOf g) fun e =>
    f { e with faults := e.faults ||| (1#8 <<< k.number.val) }
  match s.mode st k with
  | .off => s
  | .hold =>
    State.faultOffered
      { s with
        tracker := { s.tracker with stations := s.tracker.stations.set st { (marked fun e => { e with held := true }) with
            state := if x.state = .dispatching then .held else x.state } }
        events := { s.events with flags := s.events.flags ||| (1#29 <<< st.val) } } g k
  | .warn =>
    State.faultOffered
      { s with
        tracker := { s.tracker with
          stations := s.tracker.stations.set st (marked fun e => { e with warned := true }) }
        events := { s.events with flags := s.events.flags ||| (1#29 <<< (4 + st.val)) } } g k
  | .pass =>
    State.faultOffered
      { s.calledOff g with
        tracker := { s.tracker with
          stations := s.tracker.stations.set st (marked fun e => { e with state := .faulted }) } } g k

/-- The head `r` of a station, with `rest` behind it, released with an outcome (R16 to R18, R94): out of the queue, its station
IDLE, the outcome counted, the station's slots without tag owners, its RELEASE at the back of the Uplink queue, and the RELEASE
record offered (R178). -/
def State.released (s : State) (st : StationId) (r : BodyRecord) (rest : List BodyRecord) (outcome : BodyOutcome) : State :=
  let x := s.station st
  let record : BodyRecord :=
    { r with station := st, state := .releasing, releasedAt := some s.lineTime, outcome := some outcome }
  State.offered
    { s with
      tracker := { s.tracker with stations := s.tracker.stations.set st { x with
        state := .idle
        queue := rest
        counters :=
          match outcome with
          | .clean => { x.counters with releasedClean := bump x.counters.releasedClean }
          | .faulted => { x.counters with releasedFaulted := bump x.counters.releasedFaulted }
          | .aborted => { x.counters with aborted := bump x.counters.aborted } } }
      tags := Vector.ofFn fun g => if stationOf g = st then { s.tagState g with owned := false } else s.tagState g
      ports := { s.ports with
        uplinkOwn := s.ports.uplinkOwn ++
          [.release ⟨s.reportNode, s.filter.ownNode, s.filter.protocolType⟩ record] } }
    st (.release record)

/-- The slot entry of a resolution that found no fault, its SELECT built with a tag (R13, R67, R95). -/
def Resolution.selected (x : Resolution) (g : SlotId) (tag : Tag) : SlotEntry where
  position        := positionOf g
  effectivePlan   := x.effectivePlan
  overlays        := x.overlays
  program         := x.program
  groups          := x.groups
  plannedSpots    := x.plannedSpots
  expansionError  := x.expansionError
  clamp           := x.clamp
  dressRequested  := x.dressRequested
  wearUnconfirmed := x.wearUnconfirmed
  state           := .selected
  faults          := 0
  held            := false
  warned          := x.warned
  refusalReason   := none
  spotsWelded     := none
  tag             := some tag
  selectedAt      := none
  readyAt         := none

/-- The resolutions of a body's style row at the configured slots of a station, in ascending position: each slot with a plan,
and what it resolves to against the tables of a bank (R13, R52). -/
def State.resolutions (s : State) (st : StationId) (bank : BankId) (row variant : Nat) (options : BitVec 16) :
    List (SlotId × Resolution) :=
  (((List.finRange 8).map (slotOf st)).filter s.slotConfigured).filterMap fun g =>
    (resolve (s.banks.tables bank) (s.gun g) (s.mode st .wearOverrun != .off) row variant options g).map fun x => (g, x)

/-- The slots of a station selected for its head `r`, `rest` behind it, where no resolution found a fault (R13, R95, R97, R98):
the station DISPATCHING, its ready limit in force for the head (R11); the entries in the order of `found`; each slot's SELECT
with its next tag behind what waits for other slots; each tag current, owned, and followed by the next one of its cycle, with
neither timer touched; Dress Due, Wear Unknown Used and Station Warning as R68, R85 and R86 say. -/
def State.selecting (s : State) (st : StationId) (r : BodyRecord) (rest : List BodyRecord)
    (found : List (SlotId × Resolution)) : State :=
  let tag := fun g => (s.tagState g).next
  { s with
    resolver := ⟨[], []⟩
    tracker := { s.tracker with stations := s.tracker.stations.set st { s.station st with
      state := .dispatching
      headLimit := (s.station st).readyLimit
      queue := { r with entries := found.map fun y => y.2.selected y.1 (tag y.1) } :: rest } }
    ports := { s.ports with
      cellOwn := (s.ports.cellOwn.filter fun x => x.slot ∉ found.map (·.1)) ++ found.map fun y =>
        ⟨y.1, ⟨(s.robotNode? y.1).getD 0, s.filter.ownNode, s.filter.protocolType⟩,
          .select ⟨tag y.1, r.bodyId, y.2.program.getD 0, (s.station st).dry, y.2.dressRequested, y.2.wearUnconfirmed,
            y.2.groups⟩⟩ }
    tags := Vector.ofFn fun g =>
      if g ∈ found.map (·.1) then
        { s.tagState g with next := if tag g = 65535 then 1 else tag g + 1, current := tag g, owned := true }
      else s.tagState g
    guns := Vector.ofFn fun g =>
      if ∃ y ∈ found, y.1 = g ∧ y.2.consulted = true ∧ y.2.dressRequested = true then { s.gun g with dressDue := true }
      else s.gun g
    events := { s.events with
      flags := s.events.flags |||
        ((if ∃ y ∈ found, y.2.warned = true then 1#29 <<< (4 + st.val) else 0) |||
          (if ∃ y ∈ found, y.2.consulted = true ∧ y.2.wearUnconfirmed = true then 1#29 <<< 19 else 0)) } }

/-- What a resolution leaves outside the slot entry (R51, R68, R85, R86): the Resolver empty, Dress Due, Wear Unknown Used and
Station Warning. -/
def State.resolvedAt (s : State) (g : SlotId) (x : Resolution) : State :=
  { s with
    resolver := ⟨[], []⟩
    guns := s.guns.set g { s.gun g with dressDue := (s.gun g).dressDue || (x.consulted && x.dressRequested) }
    events := { s.events with
      flags := (s.events.flags ||| (if x.consulted && x.wearUnconfirmed then 1#29 <<< 19 else 0)) |||
        (if x.warned then 1#29 <<< (4 + (stationOf g).val) else 0) } }

/-- A SELECT built for the head's entry at a slot (R95, R97, R98): with the slot's next tag, behind what waits for other slots; the
tag current, owned and followed by the next one of its cycle; the entry SELECTED. -/
def State.nextSelected (s : State) (g : SlotId) : State :=
  match s.head? (stationOf g), s.entry? g with
  | some r, some e =>
    let t := s.tagState g
    State.modifyEntry
      { s with
        ports := { s.ports with
          cellOwn := (s.ports.cellOwn.filter fun x => x.slot ≠ g) ++
            [⟨g, ⟨(s.robotNode? g).getD 0, s.filter.ownNode, s.filter.protocolType⟩,
              .select ⟨t.next, r.bodyId, e.program.getD 0, (s.station (stationOf g)).dry, e.dressRequested,
                e.wearUnconfirmed, e.groups⟩⟩] }
        tags := s.tags.set g
          { t with next := if t.next = 65535 then 1 else t.next + 1, current := t.next, owned := true } }
      g fun e => { e with tag := some t.next, state := .selected }
  | _, _ => s

/-- One slot of a starting head, resolved to `x` (R13, R126): its entry behind those of the lower positions. With no fault it is
selected. With one, the kind joins its fault set and the station's mode acts: WARN selects it, warned; PASS ends it FAULTED, and
HOLD holds it in WAITING, each without a SELECT; and under each the SLOT FAULT record is offered. -/
def State.started (s : State) (g : SlotId) (x : Resolution) : State :=
  let st := stationOf g
  let entry := { x.selected g 0 with state := .waiting, tag := none }
  let joined := fun (e : SlotEntry) => (s.resolvedAt g x).modifyHead st fun r => { r with entries := r.entries ++ [e] }
  match x.fault with
  | none => (joined entry).nextSelected g
  | some k =>
    let marked := { entry with faults := 1#8 <<< k.number.val }
    match s.mode st k with
    | .warn =>
      (((joined { marked with state := .selected, warned := true }).flagged (1#29 <<< (4 + st.val))).faultOffered g
        k).nextSelected g
    | .pass => (joined { marked with state := .faulted }).faultOffered g k
    | .hold | .off => ((joined { marked with held := true }).flagged (1#29 <<< st.val)).faultOffered g k

/-- The entry a slot of a starting head, resolved to `x`, is left with (R13, R67, R126): SELECTED with the slot's next tag where no
fault is found; where one is, with the kind in its fault set: SELECTED so and warned under WARN, FAULTED under PASS, and WAITING
with a held mark under HOLD, the last two without a tag. -/
def State.startedEntry (s : State) (g : SlotId) (x : Resolution) : SlotEntry :=
  let sent := x.selected g (s.tagState g).next
  match x.fault with
  | none => sent
  | some k =>
    let bit := 1#8 <<< k.number.val
    match s.mode (stationOf g) k with
    | .warn => { sent with faults := bit, warned := true }
    | .pass => { sent with faults := bit, tag := none, state := .faulted }
    | .hold | .off => { sent with faults := bit, tag := none, state := .waiting, held := true }

/-- The head `r` of a station, `rest` behind it, with its slots resolved one after the other, under the ready limit of this moment
(R11, R13). -/
def State.startedHead (s : State) (st : StationId) (r : BodyRecord) (rest : List BodyRecord)
    (found : List (SlotId × Resolution)) : State :=
  found.foldl (fun u y => u.started y.1 y.2)
    { s with tracker := { s.tracker with stations := s.tracker.stations.set st { s.station st with
        headLimit := (s.station st).readyLimit
        queue := r :: rest } } }

/-- One entry of a withdrawn head given up (R22, R131): a WAITING one CANCELLED; a SELECTED or LOADED one called off and
CANCELLED; an ended one as it was, a FINISHED one that loses its held mark warned. No entry keeps a held mark. -/
def State.givenUp (s : State) (g : SlotId) : State :=
  match s.entry? g with
  | none => s
  | some e =>
    match e.state with
    | .waiting => s.modifyEntry g fun e => { e with state := .cancelled, held := false }
    | .selected | .loaded =>
      (if (s.tagState g).current = 0 then s else s.calledOff g).modifyEntry g fun e =>
        { e with state := .cancelled, held := false }
    | .finished =>
      (s.modifyEntry g fun e => { e with held := false, warned := e.warned || e.held }).flagged
        (if e.held = true then 1#29 <<< (4 + (stationOf g).val) else 0)
    | .faulted | .cancelled => s.modifyEntry g fun e => { e with held := false }

/-- One held entry of a HELD head under SKIP (R139): a SELECTED or LOADED one called off; FAULTED, without its held mark. A
CANCELLED one, which is never held, stays CANCELLED. -/
def State.skipped (s : State) (g : SlotId) : State :=
  match s.entry? g with
  | none => s
  | some e =>
    if e.held = false then s
    else
      (if (e.state = .selected ∨ e.state = .loaded) ∧ (s.tagState g).current ≠ 0 then s.calledOff g else s).modifyEntry g
        fun y => { y with state := if e.state = .cancelled then y.state else .faulted, held := false }

/-- The head's entry at a slot selected anew (R101): a SELECT with the slot's next tag in place of what waits for the slot; the
former current tag cancelled, without a CANCEL; no timer running; ready at absent. -/
def State.reselected (s : State) (g : SlotId) : State :=
  match s.head? (stationOf g), s.entry? g with
  | some r, some e =>
    let t := s.tagState g
    State.modifyEntry
      { s with
        ports := { s.ports with
          cellOwn := (s.ports.cellOwn.filter fun x => x.slot ≠ g) ++
            [⟨g, ⟨(s.robotNode? g).getD 0, s.filter.ownNode, s.filter.protocolType⟩,
              .select ⟨t.next, r.bodyId, e.program.getD 0, (s.station (stationOf g)).dry, e.dressRequested,
                e.wearUnconfirmed, e.groups⟩⟩] }
        tags := s.tags.set g
          { next := if t.next = 65535 then 1 else t.next + 1
            current := t.next
            cancelled := if t.current = 0 then t.cancelled else t.current
            owned := true, readyTimer := none, cycleTimer := none } }
      g fun e => { e with tag := some t.next, state := .selected, readyAt := none }
  | _, _ => s

/-- A held entry in WAITING or SELECTED under RETRY (R137): resolved anew against the tables of the body's tag, its fault set
emptied. With no fault it is warned and selected anew. With one, the kind joins the fault set and its mode acts: WARN selects
the entry anew, PASS calls it off and ends it FAULTED, HOLD calls it off and holds it in WAITING, and under each the SLOT FAULT
record is offered. That a resolution without a plan leaves the entry as it is, which no run reaches, is log entry 28. -/
def State.retriedSelection (s : State) (g : SlotId) (r : BodyRecord) (e : SlotEntry) : State :=
  let st := stationOf g
  let warning := 1#29 <<< (4 + st.val)
  match r.row.bind fun row =>
    resolve (s.banks.tables r.bankTag) (s.gun g) (s.mode st .wearOverrun != .off) row r.variant r.options g with
  | none => s
  | some x =>
    let fresh := s.resolvedAt g x
    let renewed := fun (y : SlotEntry) => { y with
      effectivePlan := x.effectivePlan, overlays := x.overlays, program := x.program, groups := x.groups
      plannedSpots := x.plannedSpots, expansionError := x.expansionError, clamp := x.clamp
      dressRequested := x.dressRequested, wearUnconfirmed := x.wearUnconfirmed
      warned := y.warned || x.warned, faults := 0 }
    let called := if e.state = .selected ∧ (s.tagState g).current ≠ 0 then fresh.calledOff g else fresh
    match x.fault with
    | none => ((fresh.modifyEntry g fun y => { renewed y with held := false, warned := true }).flagged warning).reselected g
    | some k =>
      let bit := 1#8 <<< k.number.val
      match s.mode st k with
      | .warn =>
        (((fresh.modifyEntry g fun y => { renewed y with
          faults := bit, state := .selected, held := false, warned := true }).flagged warning).faultOffered g k).reselected g
      | .pass =>
        (called.modifyEntry g fun y => { renewed y with faults := bit, state := .faulted, held := false }).faultOffered g k
      | .hold | .off =>
        ((called.modifyEntry g fun y => { renewed y with
          faults := bit, state := .waiting, held := true }).flagged (1#29 <<< st.val)).faultOffered g k

/-- One held entry of a HELD head under RETRY (R136, R137): WAITING or SELECTED as `retriedSelection` gives it; LOADED kept,
without a cycle timer, warned; FINISHED made FAULTED; no held mark on any of the last four states. -/
def State.retried (s : State) (g : SlotId) : State :=
  match s.head? (stationOf g), s.entry? g with
  | some r, some e =>
    if e.held = false then s
    else
      match e.state with
      | .waiting | .selected => s.retriedSelection g r e
      | .loaded =>
        (State.modifyEntry { s with tags := s.tags.set g { s.tagState g with cycleTimer := none } } g fun y =>
          { y with held := false, warned := true }).flagged (1#29 <<< (4 + (stationOf g).val))
      | .finished => s.modifyEntry g fun y => { y with state := .faulted, held := false }
      | .faulted | .cancelled => s.modifyEntry g fun y => { y with held := false }
  | _, _ => s

/-- What a command that may end a Section Hold answers, where its own acts leave `settled`, its station's test of the head start
condition `tested`, and what follows is `finish`: where a Section Hold in force before it has ended (R134), every station
tests its head start condition first, in an order that is open (log entry 7). -/
def State.settlesTo (s : State) (i : Instr) (settled tested : State) (finish : State → State) : Prop :=
  (s.sectionHold = false ∨ settled.sectionHold = true → exec i s = .next (settleNotice s (finish tested))) ∧
    (s.sectionHold = true → settled.sectionHold = false → ∃ order : List StationId, order.Perm [0, 1, 2, 3] ∧
      exec i s = .next (settleNotice s
        (finish (order.foldl State.testStation { tested with free := tested.free + 1 }))))

/-- What a command that changes an entry of the head of a station answers, where its own acts leave `u` (R16, R17, R18): `u`, while
the head has a held mark or an entry that has not ended; else the head is released, FAULTED where an entry is and CLEAN
otherwise, and its station tests the head start condition (R12), of which nothing comes where no record stood behind. -/
def State.finishesTo (s : State) (i : Instr) (st : StationId) (u : State) : Prop :=
  ∀ r rest, (u.station st).queue = r :: rest → r.state = .active →
    if r.bodyHeld = true ∨ ∃ y ∈ r.entries, y.ended = false ∨ y.held = true then exec i s = .next (settleNotice s u)
    else
      let done := u.released st r rest (if ∃ y ∈ r.entries, y.state = .faulted then .faulted else .clean)
      exec i s = .next (settleNotice s (done.testStation st)) ∧ (rest = [] → exec i s = .next (settleNotice s done))

/-! ## Configurations and records -/

/-- The shape values of a configuration written (R162, R184): the nodes, the Protocol Type, the station count and the slot
counts; a slot left unconfigured, or whose robot node changes, loses its tag state and a CANCEL that waits for it. -/
def State.shaped (s : State) (x : Shape) : State :=
  let kept := fun g : SlotId => x.nodes[g].isSome && x.nodes[g] == s.robotNode? g
  { s with
    filter := { s.filter with
      protocolType := x.protocolType, ownNode := x.own, controllerNode := some x.controller, trackerNode := x.tracker
      robotNodes := x.nodes }
    tracker := { s.tracker with stationCount := x.stationCount, slotCounts := x.counts }
    tags := Vector.ofFn fun g => if kept g = true then s.tagState g else ⟨1, 0, 0, false, none, none⟩
    ports := { s.ports with
      cellOwn := s.ports.cellOwn.filter fun y => match y.body with | .select _ => true | .cancel _ => kept y.slot } }

/-- The values of an image's configuration beside the shape applied (R184): the hold scope; the ready limit, brought into range,
and the modes of each station the image gives values, a mode that is undefined or not allowed replaced by the default; the
limits of each slot it gives values, brought into range. The others take the defaults where the shape is applied too, else they
keep their values. The ready limit in force for the selections of a head in progress stays (R11, log entry 36). -/
def State.adjusted (s : State) (c : ImageConfig) (shaped : Bool) : State :=
  { s with
    holdScope := imageScope c.holdScope
    tracker := { s.tracker with
      stations := Vector.ofFn fun st =>
        match c.stations[st.val]? with
        | some (limit, codes) =>
          { s.station st with
            readyLimit := if limit < 100 then 100 else if 30000 < limit then 30000 else limit
            modes := Vector.ofFn fun i =>
              match modeOf? (codes.getD i.val 255) with
              | some m => if (allKinds.getD i.val .unknownStyle).allows m = true then m else defaultModes[i]
              | none => defaultModes[i] }
        | none => if shaped = true then { s.station st with readyLimit := 3000, modes := defaultModes } else s.station st }
    guns := Vector.ofFn fun g =>
      match imageLimits? c g with
      | some l =>
        let d := if l.dressLimit < 100 then 100 else if 60000 < l.dressLimit then 60000 else l.dressLimit
        { s.gun g with
          dressLimit := d
          hardLimit := max l.hardLimit d
          ceiling := if l.ceiling < 20 then 20 else if 1800 < l.ceiling then 1800 else l.ceiling }
      | none =>
        if shaped = true then { s.gun g with dressLimit := 2000, hardLimit := 3000, ceiling := 1800 } else s.gun g }

/-- The record at a position of a run, written from index `first` upward, fails a check (R37): its own, or Duplicate Code, where
an entry outside the run or an earlier record of the run holds its style code (log entry 33). -/
def recordFails (t : Tables) (first : Nat) (records : List (Except RecordCheck (Option Record))) (position : Nat)
    (check : RecordCheck) : Prop :=
  records[position]? = some (.error check) ∨
    ∃ e, records[position]? = some (.ok (some (.style e))) ∧ check = .duplicateCode ∧
      ((∃ x ∈ t.styles, x.2.code = e.code ∧ (x.1 < first ∨ first + records.length ≤ x.1)) ∨
        ∃ j < position, ∃ e', records[j]? = some (.ok (some (.style e'))) ∧ e'.code = e.code)

/-! ## The reference tests of a validation (R44, R45) -/

/-- A reference of some tables that fails its test, as the Validation Report holds it (R44, R45): the table, the index of the
entry, the variant offset of a plan missing in a matrix cell or the step number of a failing step, the reason, and the row, the
last plan of the run, or the plan, schedule or curve found empty. The plans of a cell are looked at where its run passes. -/
inductive ReferenceFails (t : Tables) : ValidationFailure → Prop where
  | row {i e} : (i, e) ∈ t.styles → 63 < e.row → ReferenceFails t ⟨.styles, i, none, .rowRange, e.row⟩
  | planRange {i c} : (i, c) ∈ t.matrix → c.basePlan ≠ 0 → 512 < c.basePlan + c.span - 1 →
      ReferenceFails t ⟨.matrix, i, none, .planRange, c.basePlan + c.span - 1⟩
  | cellPlan {i c offset} : (i, c) ∈ t.matrix → c.basePlan ≠ 0 → c.basePlan + c.span - 1 ≤ 512 → offset < c.span →
      t.plan? (c.basePlan + offset) = none →
      ReferenceFails t ⟨.matrix, i, some offset, .planMissing, c.basePlan + offset⟩
  | overlayPlan {i e} : (i, e) ∈ t.overlays → t.plan? e.plan = none →
      ReferenceFails t ⟨.overlays, i, none, .planMissing, e.plan⟩
  | stepSchedule {i e n schedule spots} : (i, e) ∈ t.plans → e.steps[n]? = some (.group schedule spots) →
      t.schedule? schedule = none → ReferenceFails t ⟨.plans, i, some (n + 1), .scheduleMissing, schedule⟩
  | stepPlan {i e n plan} : (i, e) ∈ t.plans → e.steps[n]? = some (.call plan) → t.plan? plan = none →
      ReferenceFails t ⟨.plans, i, some (n + 1), .planMissing, plan⟩
  | curve {i e} : (i, e) ∈ t.schedules → e.curve ≠ 0 → t.curve? e.curve = none →
      ReferenceFails t ⟨.schedules, i, none, .curveMissing, e.curve⟩

/-- The order of the tests (R44): by table, in a table by index, in a plan by step and in a matrix cell by variant offset. -/
def ValidationFailure.before (f f' : ValidationFailure) : Prop :=
  f.table.number < f'.table.number ∨
    (f.table = f'.table ∧ (f.index < f'.index ∨ (f.index = f'.index ∧ f.detail.getD 0 < f'.detail.getD 0)))

/-! ## Sound states -/

/-- The tables of both banks are in their canonical form (R25). -/
abbrev State.tablesCanonical (s : State) : Prop := s.banks.tablesA.wf = true ∧ s.banks.tablesB.wf = true

/-- A step in the ranges of R29. -/
def PlanStep.inRange : PlanStep → Prop
  | .group schedule spots => 1 ≤ schedule ∧ schedule ≤ 64 ∧ 1 ≤ spots ∧ spots ≤ 255
  | .call plan => 1 ≤ plan ∧ plan ≤ 512

/-- A record in the ranges of its table (R26 to R31), as the checks of R37 have it. -/
def Record.inRange : Record → Prop
  | .style e => e.code ≠ 0 ∧ e.code ≠ 65535 ∧ e.row ≤ 63
  | .cell c => c.basePlan ≤ 512 ∧ 1 ≤ c.span ∧ c.span ≤ 4
  | .overlay e => e.optionBit ≤ 15 ∧ (∀ row, e.row = some row → row ≤ 63) ∧ e.slot ≤ 31 ∧ 1 ≤ e.plan ∧ e.plan ≤ 512
  | .plan e =>
    1 ≤ e.program ∧ e.program ≤ 255 ∧ e.cycleMin ≤ 65535 ∧ e.cycleMax ≤ 65535 ∧ 1 ≤ e.steps.length ∧ e.steps.length ≤ 12 ∧
      ∀ x ∈ e.steps, x.inRange
  | .schedule e => 20 ≤ e.base ∧ e.base ≤ 1800 ∧ 1 ≤ e.weldTime ∧ e.weldTime ≤ 999 ∧ e.curve ≤ 16
  | .curve l => 2 ≤ l.length ∧ l.length ≤ 8 ∧ (∀ p ∈ l, p.wear ≤ 60000 ∧ p.raise ≤ 500) ∧ curveOrdered l = true

/-- Every non-empty entry of some tables is in the ranges of its table. -/
def Tables.inRange (t : Tables) : Prop := ∀ x ∈ t.records, x.2.2.inRange

/-- The entries of both banks are in range. -/
abbrev State.tablesInRange (s : State) : Prop := s.banks.tablesA.inRange ∧ s.banks.tablesB.inRange

/-- A Gun Table entry in the ranges of R73. -/
abbrev Gun.inRange (x : Gun) : Prop :=
  x.wear ≤ 65535 ∧ x.dressCount ≤ 65535 ∧ x.capChanges ≤ 65535 ∧ 100 ≤ x.dressLimit ∧ x.dressLimit ≤ 60000 ∧
    x.dressLimit ≤ x.hardLimit ∧ x.hardLimit ≤ 65535 ∧ 20 ≤ x.ceiling ∧ x.ceiling ≤ 1800

/-- A station's ready limit in range, as the one in force for its head (R11, R103), and every one of its nine modes one that its
kind allows (R123). -/
abbrev Station.settingsInRange (x : Station) : Prop :=
  100 ≤ x.readyLimit ∧ x.readyLimit ≤ 30000 ∧ 100 ≤ x.headLimit ∧ x.headLimit ≤ 30000 ∧
    ∀ k ∈ allKinds, k.allows x.modes[k.number] = true

/-- The hard limits an image being read gives are 16-bit values (R181). -/
def Loader.limitsFit (l : Loader) : Prop := ∀ c, l.config = some c → ∀ x ∈ c.guns, x.hardLimit ≤ 65535

/-- Every gun and every station is in range, and the image being read gives 16-bit limits. -/
def State.settingsInRange (s : State) : Prop :=
  (∀ g : SlotId, s.guns[g].inRange) ∧ (∀ st : StationId, (s.station st).settingsInRange) ∧ s.loader.limitsFit

/-- A station whose queue and state agree (R4, R7, R125): at most 4 records, no Body Id twice, every record behind the front
QUEUED and the front QUEUED or ACTIVE; DISPATCHING or HELD exactly when it has a head, and HELD exactly when that head
carries a held mark. -/
def Station.sound (x : Station) : Prop :=
  x.queue.length ≤ 4 ∧ (x.queue.map (·.bodyId)).Nodup ∧ (∀ r ∈ x.queue.tail, r.state = .queued) ∧
    (∀ r, x.queue.head? = some r → r.state = .queued ∨ r.state = .active) ∧
    ((x.state = .dispatching ∨ x.state = .held) ↔ x.head?.isSome = true) ∧
    (x.state = .held ↔ ∃ r, x.head? = some r ∧ r.anyHeld = true)

/-- Every station is sound. -/
def State.stationsSound (s : State) : Prop := ∀ st : StationId, (s.station st).sound

/-- Whether a telegram of the Uplink own-telegram queue is a REPLY. -/
def UplinkTelegram.isReply : UplinkTelegram → Bool
  | .reply .. => true
  | .release .. | .notice | .copy .. => false

/-- Whether a telegram of the Uplink own-telegram queue is a NOTICE. -/
def UplinkTelegram.isNotice : UplinkTelegram → Bool
  | .notice => true
  | .release .. | .reply .. | .copy .. => false

/-- The Uplink own-telegram queue and the Request Queue within their room (R152, R156): at most 11 COPYs; one NOTICE while
the pending-notice marker is set and none while it is clear; as many REPLYs as answered requests; at most 4 requests; and
the answered ones ahead of the waiting ones. -/
abbrev State.uplinkBounded (s : State) : Prop :=
  s.copiesWaiting ≤ 11 ∧
    s.ports.uplinkOwn.countP (·.isNotice) = (if s.events.noticePending then 1 else 0) ∧
    s.ports.uplinkOwn.countP (·.isReply) = s.agent.requests.countP (·.answered) ∧
    s.agent.requests.length ≤ 4 ∧
    (s.agent.requests.map (·.answered)).Pairwise fun x y => y = true → x = true

/-- The forward queues, the Refusal Log and the Body Record pool within their room (R1, R8, R150). -/
abbrev State.roomKept (s : State) : Prop :=
  s.ports.toCell.length ≤ 32 ∧ s.ports.toUplink.length ≤ 32 ∧ s.tracker.refusalLog.length ≤ 4 ∧
    s.recordsInUse.length ≤ 16

/-- Every slot's next tag is a tag: 1 to 65535 (R94). -/
abbrev State.tagsValid (s : State) : Prop := ∀ g : SlotId, s.tags[g].next ≠ 0

/-- The Cell own-telegram queue as R98 and R151 keep it: at most one telegram for each slot, which, while the slot has a current
tag, is the SELECT that carries that tag. -/
abbrev State.cellKept (s : State) : Prop :=
  (s.ports.cellOwn.map (·.slot)).Nodup ∧
    ∀ x ∈ s.ports.cellOwn, (s.tagState x.slot).current ≠ 0 → x.isSelectFor x.slot (s.tagState x.slot).current = true

/-- Every record in use carries the tag of the ACTIVE bank, or of the other one while that one is DRAINING (R32, R35). -/
abbrev State.bankTagsKept (s : State) : Prop :=
  ∀ r ∈ s.recordsInUse, r.bankTag = s.banks.active ∨ s.banks.other = .draining

/-- No REWORK record of a queue stands behind a NORMAL one that is QUEUED (R7). -/
def reworkFirst (queue : List BodyRecord) : Prop :=
  queue.Pairwise fun x y => x.origin = .normal → x.state = .queued → y.origin = .normal

/-- The Station Queues keep REWORK records ahead of NORMAL ones that have not started. -/
def State.reworkFirst (s : State) : Prop := ∀ st : StationId, Machine.reworkFirst (s.station st).queue

/-- Every QUEUED record of a Station Queue is as it was created in what head start and release fill in (R2): no slot entry, no
body held mark, and Started at, Released at and the outcome absent. -/
def State.queuedFresh (s : State) : Prop :=
  ∀ st : StationId, ∀ r ∈ (s.station st).queue, r.state = .queued →
    r.entries = [] ∧ r.bodyHeld = false ∧ r.startedAt = none ∧ r.releasedAt = none ∧ r.outcome = none

/-- Two states of one configuration (R161): Protocol Type, nodes, station count and slot counts. -/
abbrev State.sameConfiguration (s t : State) : Prop :=
  t.filter.protocolType = s.filter.protocolType ∧ t.filter.ownNode = s.filter.ownNode ∧
    t.filter.controllerNode = s.filter.controllerNode ∧ t.filter.trackerNode = s.filter.trackerNode ∧
    t.filter.robotNodes = s.filter.robotNodes ∧ t.tracker.stationCount = s.tracker.stationCount ∧
    t.tracker.slotCounts = s.tracker.slotCounts

end Sys2Proof.Machine
end

