-- ==== Sys2Proof/Certificates/Slice0/Obligations.lean ====
section
/-! DEFINITION. The statements about the part that the provers settle. Each names the rule it formalises, or says that it is
the model's own choice. -/

section Statements

open Sys2Proof Sys2Proof.Machine

/-! ## The step and the reset -/

/-- Section 1.3 of 00_scope.md as a block: a step runs the command at the front of the queue with the queue's rest, and is
that command's effect. -/
def Obligations.StepRunsTheFrontCommand : Prop :=
  ∀ (c : Instr) (rest : List Instr) (s : State),
    step { s with pending := c :: rest } = exec c { s with pending := rest }

/-- R42, R182, R183, R186: on an empty queue a step is one millisecond, by the model's choice (log entry 1): line time goes on by
one, wrapping (section 2 of 00_scope.md), and nothing else changes while no copy runs and the Image Loader is idle. While a COPY
BANK, a load or a store runs, it is carried on by an open number of units (log entry 4), and only its progress, what it writes
and the free-value count change with line time. A copy goes on in the order of R42, table by table and in ascending index: each
entry of the target that has been reached is the source's, and every other one as before. A load writes only its target, Bank A at
power-up and else the bank that is not ACTIVE, and makes the units that LoadImageEndMarksTheBank states one by one. A store writes
only the flash: an octet of header or payload reads as what is stored where it has been written and as erased where not, and the
checksum field as erased. -/
def Obligations.EmptyQueueIsOneMillisecond : Prop :=
  ∀ s : State, s.pending = [] →
    let target := s.banks.active.other
    let offset := fun k : TableId => [0, 64, 2112, 2240, 2752, 2816].getD k.number.val 0
    (s.running .copyBank = false → s.loader.activity = .idle → step s = .next { s with lineTime := s.lineTime + 1 }) ∧
    (∀ op, s.agent.longOp = some op → op.kind = .copyBank → ∃ (n : Nat) (b : Tables),
      min op.copied 2832 ≤ n ∧ n ≤ 2832 ∧
      step s = .next { s with
        lineTime := s.lineTime + 1
        free := s.free + 1
        agent := { s.agent with longOp := some { op with copied := n } }
        banks := s.banks.setTables target b } ∧
      (∀ k i, k.inRange i = true → b.record? k i =
        if offset k + (i - k.firstIndex) < n then (s.banks.tables s.banks.active).record? k i
        else (s.banks.tables target).record? k i) ∧
      (∀ k i, b.record? k i = (s.banks.tables s.banks.active).record? k i ∨
        b.record? k i = (s.banks.tables target).record? k i)) ∧
    (s.running .copyBank = false → s.loader.activity = .powerUpLoad ∨ s.loader.activity = .load →
      let filled := if s.loader.activity = .powerUpLoad then BankId.a else target
      ∃ (n : Nat) (l : Loader) (b : Tables), (l, b) = (loadUnit s.flash)^[n] (s.loader, s.banks.tables filled) ∧
        l.activity = s.loader.activity ∧
        step s = .next { s with
          lineTime := s.lineTime + 1, free := s.free + 1, loader := l, banks := s.banks.setTables filled b }) ∧
    (s.running .copyBank = false → s.loader.activity = .store → ∃ (n : Nat) (flash : List Octet),
      min s.loader.position s.loader.stored.length ≤ n ∧ n ≤ s.loader.stored.length ∧
      step s = .next { s with
        lineTime := s.lineTime + 1
        free := s.free + 1
        loader := { s.loader with
          position := n
          sum := BitVec.ofNat 16 ((((s.loader.stored.take n).drop 23).map BitVec.toNat).sum) }
        flash := flash } ∧
      (∀ i : Nat, (flash[i]?).getD 255 =
        if i < 23 then ((s.loader.stored.take n)[i]?).getD 255
        else if i < 25 then 255
        else ((s.loader.stored.take n)[i - 2]?).getD 255))

/-- R157: the model's choice (log entries 1, 2, 30), of which the rule says only that requests are executed: every command
answers a next state, also where it finds no occasion, and none changes the queue of commands. -/
def Obligations.EveryCommandLeavesTheQueue : Prop :=
  ∀ (c : Instr) (s : State), ∃ t, exec c s = .next t ∧ t.pending = s.pending

/-- R23, R49, R51, R74, R120, R143, R145, R154, R169, R176, R180, R185: what power-up reset leaves. -/
def Obligations.ResetHoldsThePowerUpValues : Prop :=
  let s := State.reset
  s.lineTime = 0 ∧ s.recordsInUse = [] ∧ s.tracker.refusalLog = [] ∧ s.tracker.stationCount = 0 ∧
    (∀ st : StationId, (s.station st).state = .offline ∧ (s.station st).dry = false ∧
      (s.station st).readyLimit = 3000 ∧ (s.station st).queue = [] ∧ (s.station st).counters = ⟨0, 0, 0, 0, 0, 0⟩ ∧
      s.tracker.slotCounts[st] = 0 ∧ (∀ k ∈ allKinds, s.mode st k =
        if k = .shortCycle ∨ k = .spotShortfall ∨ k = .qualityReject then .pass else .hold)) ∧
    (∀ g : SlotId, s.gun g = ⟨0, true, false, 0, 0, 2000, 3000, 1800⟩ ∧ s.tagState g = ⟨1, 0, 0, false, none, none⟩) ∧
    s.banks.active = .a ∧ s.banks.other = .shadow ∧ s.banks.validated = false ∧ s.banks.loadIncomplete = false ∧
    s.banks.report.outcome = .none ∧ (∀ i, s.tagCount i = 0) ∧
    s.banks.tablesA = ⟨[], [], [], [], [], []⟩ ∧ s.banks.tablesB = ⟨[], [], [], [], [], []⟩ ∧ s.resolver = ⟨[], []⟩ ∧
    s.filter.protocolType = 0x8F5A ∧ s.filter.ownNode = 65534 ∧ s.filter.controllerNode = none ∧
    s.filter.trackerNode = none ∧ s.filter.replyNode = none ∧ (∀ g : SlotId, s.filter.robotNodes[g] = none) ∧
    s.ports.toCell = [] ∧ s.ports.toUplink = [] ∧ s.ports.cellOwn = [] ∧ s.ports.uplinkOwn = [] ∧
    s.agent.requests = [] ∧ s.agent.partState = .commissioning ∧ s.agent.longOp = none ∧
    s.events = ⟨0, 0, false, 0, 0, 0, 0, 0, 0⟩ ∧ s.holdScope = .station ∧
    (∀ c : ChannelId, s.channels[c] = { trigger := .release, stationMask := 0, destination := none, count := some 1
                                        remaining := 0, armed := false, copyLost := 0 }) ∧
    s.loader.activity = .powerUpLoad

/-- The state after power-up reset is sound in every sense the invariants below keep. That the ready limit in force for a head
lies in range there is the model's choice (log entry 36). -/
def Obligations.ResetIsSound : Prop :=
  State.reset.tablesCanonical ∧ State.reset.tablesInRange ∧ State.reset.settingsInRange ∧ State.reset.stationsSound ∧
    State.reset.uplinkBounded ∧ State.reset.roomKept ∧ State.reset.tagsValid ∧ State.reset.agent.partState = .commissioning ∧
    State.reset.cellKept ∧ State.reset.bankTagsKept ∧ State.reset.reworkFirst ∧ State.reset.queuedFresh

/-! ## What every step keeps -/

/-- R25, R26, R27, R28, R29, R30, R31, R37: every step keeps the tables of both banks in their canonical form, entries at rising
indexes, an empty matrix cell listed nowhere; and every step keeps each entry in the ranges of its table, whether it is written,
loaded or copied. -/
def Obligations.EveryStepKeepsTablesCanonical : Prop :=
  (∀ s t : State, s.tablesCanonical → step s = .next t → t.tablesCanonical) ∧
    (∀ s t : State, s.tablesInRange → step s = .next t → t.tablesInRange)

/-- R11, R73, R123: every step keeps ready limits, those in force for a head among them (log entry 36), gun limits and counts in
range, every hard limit at or above its dress limit, and every mode one its kind allows, by the table that
SetFaultModesWritesTheNamedModes states. -/
def Obligations.EveryStepKeepsSettingsInRange : Prop :=
  ∀ s t : State, s.settingsInRange → step s = .next t → t.settingsInRange

/-- R2, R4, R7, R125: every step keeps every station sound: at most 4 records and no Body Id twice in a queue, an ACTIVE record
only at its front, and a station HELD exactly when its head carries a held mark; every step keeps REWORK records ahead of the
NORMAL ones that are QUEUED; and every step keeps each QUEUED record without slot entries, body held mark, Started at, Released at
and outcome. -/
def Obligations.EveryStepKeepsStationsSound : Prop :=
  ∀ s t : State, step s = .next t → (s.stationsSound → t.stationsSound) ∧ (s.reworkFirst → t.reworkFirst) ∧
    (s.queuedFresh → t.queuedFresh)

/-- R1, R8, R98, R150, R151, R152, R156: every step keeps the Body Record pool, the Refusal Log, the forward queues, the Uplink
own-telegram queue and the Request Queue within their room; and every step keeps the Cell own-telegram queue at one telegram
at most for each slot, the SELECT of its current tag while it has one, and so within its room of 32. -/
def Obligations.EveryStepKeepsQueuesWithinRoom : Prop :=
  ∀ s t : State, step s = .next t → (s.uplinkBounded → s.roomKept → t.uplinkBounded ∧ t.roomKept) ∧
    (s.cellKept → t.cellKept ∧ t.ports.cellOwn.length ≤ 32)

/-- R32, R35, R94, R95: every step keeps every next tag a tag, in 1 to 65535; and every step keeps the bank tag of every record
in use that of the ACTIVE bank, or of the other one while that one is DRAINING. -/
def Obligations.EveryStepKeepsTagsValid : Prop :=
  ∀ s t : State, step s = .next t → (s.tagsValid → t.tagsValid) ∧ (s.bankTagsKept → t.bankTagsKept)

/-- R161: once the part is LIVE it stays LIVE, and its configuration stays unchanged, at every step but a power-up reset;
the premise, that a power-up load runs only in COMMISSIONING, is kept by every step. -/
def Obligations.LivePartKeepsItsConfiguration : Prop :=
  ∀ s t : State, (s.loader.activity = .powerUpLoad → s.agent.partState = .commissioning) → step s = .next t →
    (t.loader.activity = .powerUpLoad → t.agent.partState = .commissioning) ∧
      (s.agent.partState = .live → s.pending.head? ≠ some .powerUpReset →
        t.agent.partState = .live ∧ s.sameConfiguration t)

/-! ## Power-up -/

/-- R185: a power-up reset puts every block at its power-up values and begins the power-up load; the model's choices (log
entries 11, 12, 30, 36) are that link states, flash, the command queue and the free-value count stay, and the ready limit in
force for a head. -/
def Obligations.PowerUpResetReturnsEveryBlock : Prop :=
  ∀ s : State, exec .powerUpReset s = .next
    { State.reset with
      pending := s.pending
      free := s.free
      flash := s.flash
      ports := { State.reset.ports with uplinkUp := s.ports.uplinkUp, cellUp := s.ports.cellUp } }

/-- R49, R74, R143, R184, R185: the power-up load, read to its end by the units that LoadImageEndMarksTheBank states of every load,
completes in one of its three outcomes, and the Image Loader is idle and cleared (log entry 38). One that passes every check and
the validation of Bank A applies the image's configuration in full, in which an undefined hold scope code is a free value (log
entry 22) and Dress Due stays (log entry 19). One that fails the checks, or the validation, leaves Bank A empty and not validated,
applies no configuration, and changes nothing else but the Validation Report of a failed validation, the events and the loader. -/
def Obligations.PowerUpLoadEndsInOneOfThreeWays : Prop :=
  ∀ (s : State) (answers : Bool), s.loader.activity = .powerUpLoad →
    let l := s.finishLoad answers
    let ended := fun (u : State) (b : Banks) (flag : Nat) =>
      settleNotice s { u with
        banks := b
        loader := Loader.start .idle
        events := { s.events with flags := s.events.flags ||| (1#29 <<< flag) } }
    let failed := fun report =>
      ended s { s.banks with tablesA := ⟨[], [], [], [], [], []⟩, validated := false, report := report } 13
    (∃ t, exec (.powerUpLoadEnd answers) s = .next t ∧ t.loader.activity = .idle ∧ t.banks.active = s.banks.active ∧
      t.banks.tablesB = s.banks.tablesB) ∧
    (l.loader.phase ≠ .passed → exec (.powerUpLoadEnd answers) s = .next (failed s.banks.report)) ∧
    (l.loader.phase = .passed →
      (∀ f, validationFailure l.banks.tablesA = some f → exec (.powerUpLoadEnd answers) s = .next (failed
        ⟨.failed, some .a, some f.table, some f.index, f.detail, some f.reason, some f.referenced,
          some s.lineTime⟩)) ∧
      (∀ c, validationFailure l.banks.tablesA = none → l.loader.config = some c →
        exec (.powerUpLoadEnd answers) s = .next (ended ((s.shaped c.shape).adjusted c true)
          { s.banks with
            tablesA := l.banks.tablesA
            validated := true
            report := ⟨.passed, some .a, none, none, none, none, none, some s.lineTime⟩ } 12)))

/-! ## The traffic path -/

/-- R144, R146, R149, R150: a change of a port's link changes the link state alone, and a port whose link is down receives
nothing. A good frame of another type is placed unchanged at the back of the forward queue of its direction, or, where that queue
holds 32 frames, dropped and counted; so is a telegram of the Protocol Type for another node, 0 and 65535 among them, that is no
SELECT or CANCEL or is for no configured robot, whatever its version, length and other fields; a bad or short frame changes
nothing. -/
def Obligations.OrdinaryFrameIsForwardedOrCounted : Prop :=
  ∀ (s : State) (f : Frame),
    let forwarded :=
      (s.ports.uplinkUp = true → exec (.frameReceive .uplink true f) s = .next (
        if s.ports.toCell.length < 32 then { s with ports := { s.ports with toCell := s.ports.toCell ++ [f] } }
        else { s with events := { s.events with forwardDropsToCell := bump s.events.forwardDropsToCell } })) ∧
      (s.ports.cellUp = true → exec (.frameReceive .cell true f) s = .next (
        if s.ports.toUplink.length < 32 then { s with ports := { s.ports with toUplink := s.ports.toUplink ++ [f] } }
        else { s with events := { s.events with forwardDropsToUplink := bump s.events.forwardDropsToUplink } }))
    (exec (.linkUp .uplink) s = .next { s with ports := { s.ports with uplinkUp := true } } ∧
      exec (.linkDown .uplink) s = .next { s with ports := { s.ports with uplinkUp := false } } ∧
      exec (.linkUp .cell) s = .next { s with ports := { s.ports with cellUp := true } } ∧
      exec (.linkDown .cell) s = .next { s with ports := { s.ports with cellUp := false } }) ∧
    (∀ port good, s.linkUp port = false ∨ good = false ∨ f.payload.length < 46 →
      exec (.frameReceive port good f) s = .next s) ∧
    (46 ≤ f.payload.length → f.etherType ≠ s.filter.protocolType → forwarded) ∧
    (∀ (version kind hi lo : Octet) (d source : Node) (rest : List Octet),
      f.payload = [version, kind, hi, lo] ++ Octets.be2 d ++ Octets.be2 source ++ rest → 46 ≤ f.payload.length →
      f.etherType = s.filter.protocolType → d ≠ s.filter.ownNode →
      (kind ≠ 0x10 ∧ kind ≠ 0x11) ∨ (∀ g : SlotId, s.robotNode? g ≠ some d) → forwarded)

/-- R149, R150: while the part is LIVE, a SELECT or CANCEL of another sender for the robot of a station that is IDLE, DISPATCHING
or HELD is dropped at the Uplink port, counted, and Guard Drop is set; at a MANUAL or OFFLINE station, in COMMISSIONING, and at
the Cell port it is forwarded, or dropped and counted where the forward queue is full. -/
def Obligations.GuardDropsForeignSelections : Prop :=
  ∀ (s : State) (version kind hi lo : Octet) (d source : Node) (rest : List Octet) (f : Frame) (g : SlotId),
    f.payload = [version, kind, hi, lo] ++ Octets.be2 d ++ Octets.be2 source ++ rest → 46 ≤ f.payload.length →
    f.etherType = s.filter.protocolType → (kind = 0x10 ∨ kind = 0x11) → d ≠ s.filter.ownNode →
    s.slotOfNode? d = some g →
    let x := (s.station (stationOf g)).state
    (s.ports.uplinkUp = true → s.agent.partState = .live → x = .idle ∨ x = .dispatching ∨ x = .held →
      exec (.frameReceive .uplink true f) s = .next (settleNotice s
        { s with
          events :=
            { s.events with
              guardDrops := bump s.events.guardDrops
              flags := s.events.flags ||| (1#29 <<< 16) } })) ∧
      (s.ports.uplinkUp = true → s.agent.partState = .commissioning ∨ x = .manual ∨ x = .offline →
        exec (.frameReceive .uplink true f) s = .next (
          if s.ports.toCell.length < 32 then { s with ports := { s.ports with toCell := s.ports.toCell ++ [f] } }
          else { s with events := { s.events with forwardDropsToCell := bump s.events.forwardDropsToCell } })) ∧
      (s.ports.cellUp = true → exec (.frameReceive .cell true f) s = .next (
        if s.ports.toUplink.length < 32 then { s with ports := { s.ports with toUplink := s.ports.toUplink ++ [f] } }
        else { s with events := { s.events with forwardDropsToUplink := bump s.events.forwardDropsToUplink } }))

/-- R146, R147, R148, R189, R190, R192: a well-formed telegram of each of the five kinds the part takes, ANNOUNCE, WITHDRAW, REQUEST,
READY and DONE, for the own node in a good frame of the Protocol Type, padded to the Ethernet minimum, is what the command of
that kind does with its fields (log entry 6: the model gives both commands). -/
def Obligations.AnnounceFrameIsTheAnnouncement : Prop :=
  ∀ (s : State) (source : Node) (bodyId : BodyId) (station origin : Octet) (style options : BitVec 16)
    (variant : Octet) (number : BitVec 16) (code : Octet) (params : List Octet) (tag : Tag)
    (verdict reason program spots quality dressed : Octet) (a b : BitVec 48),
    let frame := fun (kind : Octet) (body : List Octet) =>
      Frame.mk a b s.filter.protocolType
        ([1, kind] ++ Octets.be2 (BitVec.ofNat 16 body.length) ++ Octets.be2 s.filter.ownNode ++ Octets.be2 source ++ body ++
          List.replicate (38 - body.length) 0)
    exec (.frameReceive .uplink true (frame 0x01 (Octets.be4 bodyId ++ [station, origin] ++ Octets.be2 style ++
        Octets.be2 options ++ [variant]))) s =
      exec (.announce source bodyId station origin style options variant) s ∧
    exec (.frameReceive .uplink true (frame 0x02 (Octets.be4 bodyId ++ [station]))) s =
      exec (.withdraw source bodyId station) s ∧
    (params.length ≤ 1489 →
      exec (.frameReceive .uplink true (frame 0x03 (Octets.be2 number ++ [code] ++ params))) s =
        exec (.request source number code params) s) ∧
    exec (.frameReceive .cell true (frame 0x12 (Octets.be2 tag ++ [verdict, reason, program]))) s =
      exec (.ready source tag verdict reason program) s ∧
    exec (.frameReceive .cell true (frame 0x13 (Octets.be2 tag ++ [spots, quality, dressed]))) s =
      exec (.done source tag spots quality dressed) s

/-- R105, R147, R148: in a good frame of the Protocol Type at a port whose link is up, a telegram for the own node for which one of
the conditions of R147 holds is a frame error: another version; a body length above the octets present, or below them in a frame
longer than the Ethernet minimum; an undefined kind; a body below its kind's minimum (Table 11-1); a source of 0, 65535 or the
own node; a kind the part only sends; ANNOUNCE, WITHDRAW or REQUEST at the Cell port; READY or DONE at the Uplink port, or of a
node that is no robot node of a configured slot; a REQUEST of a node other than the configured controller. So are a READY with
another verdict than LOADED and REFUSED, and a DONE with an undefined quality verdict or dressed indication. A frame error is
counted, sets Frame Error, and changes nothing else. -/
def Obligations.FrameErrorIsCountedAndDiscarded : Prop :=
  ∀ (s : State) (source : Node),
    let discarded := fun (i : Instr) => exec i s = .next (settleNotice s
      { s with
        events :=
          { s.events with
            frameErrors := bump s.events.frameErrors
            flags := s.events.flags ||| (1#29 <<< 17) } })
    let least : List (Octet × Nat) :=
      [(0x01, 11), (0x02, 5), (0x03, 3), (0x10, 15), (0x11, 2), (0x12, 5), (0x13, 5), (0x20, 28), (0x21, 5), (0x22, 9),
        (0x23, 15)]
    (∀ (port : Port) (version kind hi lo : Octet) (rest : List Octet) (f : Frame),
      f.payload = [version, kind, hi, lo] ++ Octets.be2 s.filter.ownNode ++ Octets.be2 source ++ rest →
      46 ≤ f.payload.length → f.etherType = s.filter.protocolType → s.linkUp port = true →
      let length := 256 * hi.toNat + lo.toNat
      version ≠ 1 ∨ rest.length < length ∨ (length < rest.length ∧ 46 < f.payload.length) ∨
        (∀ x ∈ least, kind ≠ x.1) ∨ (∃ x ∈ least, kind = x.1 ∧ length < x.2) ∨
        source = 0 ∨ source = 65535 ∨ source = s.filter.ownNode ∨
        kind = 0x10 ∨ kind = 0x11 ∨ kind = 0x20 ∨ kind = 0x21 ∨ kind = 0x22 ∨ kind = 0x23 ∨
        (port = .cell ∧ (kind = 0x01 ∨ kind = 0x02 ∨ kind = 0x03)) ∨
        ((kind = 0x12 ∨ kind = 0x13) ∧ (port = .uplink ∨ ∀ g : SlotId, s.robotNode? g ≠ some source)) ∨
        (kind = 0x03 ∧ ∃ c, s.filter.controllerNode = some c ∧ source ≠ c) →
      discarded (.frameReceive port true f)) ∧
    (∀ (tag : Tag) (verdict reason program : Octet), s.ports.cellUp = true → verdict ≠ 1 → verdict ≠ 2 →
      discarded (.ready source tag verdict reason program)) ∧
    (∀ (tag : Tag) (spots quality dressed : Octet), s.ports.cellUp = true →
      (quality ≠ 1 ∧ quality ≠ 2) ∨ 1 < dressed.toNat → discarded (.done source tag spots quality dressed))

/-- R100, R150, R152, R153, R189, R190, R191: a CANCEL at the front of the Cell own-telegram queue, and a COPY at the front of the
Uplink one, leave as the frame the transmitter sends; a forwarded frame leaves unchanged from the front of its queue, only while
the link is up and no own telegram waits at the port. Nothing else changes. An own telegram goes out to the broadcast address from
the port's own one: version 1, its kind, the length of its body, the destination and the source it was built with, the body, and
zeros up to the Ethernet minimum of 46 octets, multi-octet fields most significant octet first. The bodies of SELECT, CANCEL and
COPY are laid out field by field; a RELEASE copy carries the body of a RELEASE and a SLOT DONE copy a slot entry, as
ReleaseTransmitFreesTheRecord lays them out. The part's own addresses are individual ones: which bit says so is PRESUMED (log
entry 23). -/
def Obligations.TransmittedFramesLeaveTheirQueues : Prop :=
  (∀ p : Port, (stationAddress p).getLsbD 40 = false) ∧
  (∀ v : BitVec 16, Octets.be2 v = [v.extractLsb' 8 8, v.extractLsb' 0 8]) ∧
  (∀ v : BitVec 32,
    Octets.be4 v = [v.extractLsb' 24 8, v.extractLsb' 16 8, v.extractLsb' 8 8, v.extractLsb' 0 8]) ∧
  (∀ n : Nat, Octets.nat1 n = [BitVec.ofNat 8 n] ∧ Octets.nat2 n = Octets.be2 (BitVec.ofNat 16 n) ∧
    Octets.nat4 n = Octets.be4 (BitVec.ofNat 32 n)) ∧
  (∀ (port : Port) (kind : Octet) (v : Envelope) (body : List Octet), telegramFrame port kind v body =
    { dstAddr := 0xFFFFFFFFFFFF, srcAddr := stationAddress port, etherType := v.protocolType
      payload :=
        [1, kind] ++ Octets.be2 (BitVec.ofNat 16 body.length) ++ Octets.be2 v.destination ++ Octets.be2 v.source ++ body ++
          List.replicate (38 - body.length) 0 }) ∧
  (∀ x : CellTelegram, x.frame =
    match x.body with
    | .select c => telegramFrame .cell 0x10 x.envelope (
        Octets.be2 c.tag ++ Octets.be4 c.bodyId ++ Octets.nat1 c.program ++
          [(if c.dry = true then 1 else 0) ||| (if c.dressRequest = true then 2 else 0) |||
            (if c.wearUnconfirmed = true then 4 else 0)] ++
          Octets.nat1 c.groups.length ++ c.groups.flatMap fun y =>
            Octets.nat1 y.schedule ++ Octets.nat1 y.spots ++ Octets.nat2 y.weldTime ++ Octets.nat2 y.current)
    | .cancel tag => telegramFrame .cell 0x11 x.envelope (Octets.be2 tag)) ∧
  (∀ (c : ChannelId) (st : StationId) (time : LineTime) (content : CopyContent), copyOctets c st time content =
    Octets.nat1 c.val ++ Octets.nat1 (match content with | .release _ => 0 | .slotDone .. => 1 | .slotFault .. => 2) ++
      Octets.nat1 st.val ++ Octets.be4 time ++
      match content with
      | .release r => releaseOctets r
      | .slotDone bodyId e => Octets.be4 bodyId ++ entryOctets e
      | .slotFault bodyId position kind state faults =>
        Octets.be4 bodyId ++ Octets.nat1 position.val ++
          Octets.nat1 (match kind with
            | .readyTimeout => 0 | .readyRefused => 1 | .cycleTimeout => 2 | .shortCycle => 3 | .spotShortfall => 4
            | .qualityReject => 5 | .wearOverrun => 6 | .expansionError => 7 | .unknownStyle => 8) ++
          Octets.nat1 (match state with
            | .waiting => 0 | .selected => 1 | .loaded => 2 | .finished => 3 | .faulted => 4 | .cancelled => 5) ++
          [faults]) ∧
  ∀ (s : State),
    (∀ (x : CellTelegram) (tag : Tag) (rest : List CellTelegram),
      s.ports.cellUp = true → s.ports.cellOwn = x :: rest → x.body = .cancel tag →
      exec .cancelTransmit s = .next { s with ports := { s.ports with cellOwn := rest, cellTx := some x.frame } }) ∧
    (∀ (v : Envelope) (c : ChannelId) (st : StationId) (time : LineTime) (content : CopyContent)
      (rest : List UplinkTelegram),
      s.ports.uplinkUp = true → s.ports.uplinkOwn = .copy v c st time content :: rest →
      exec .copyTransmit s = .next
        { s with
          ports :=
            { s.ports with
              uplinkOwn := rest
              uplinkTx := some (telegramFrame .uplink 0x23 v (copyOctets c st time content)) } }) ∧
    (∀ (f : Frame) (rest : List Frame), s.ports.toUplink = f :: rest → exec (.forwardTransmit .uplink) s = .next (
      if s.ports.uplinkUp = true ∧ s.ports.uplinkOwn = [] then
        { s with ports := { s.ports with toUplink := rest, uplinkTx := some f } }
      else s)) ∧
    (∀ (f : Frame) (rest : List Frame), s.ports.toCell = f :: rest → exec (.forwardTransmit .cell) s = .next (
      if s.ports.cellUp = true ∧ s.ports.cellOwn = [] then
        { s with ports := { s.ports with toCell := rest, cellTx := some f } }
      else s))

/-! ## Bodies -/

/-- R5, R8, R162: an announcement with Body Id 0, style code 0 or 65535, or an undefined origin is a frame error, without an entry
in the Refusal Log. A well-formed one for which a condition of R5 holds is refused with the first one's reason: an entry at the
end of the Refusal Log, which keeps the last four, the refusals counter and Announce Refused, and nothing else. Until a
configuration is applied, when the station count is 0, R5 gives the reason Source and R162 the reason No Such Station. The part
follows one of the two rules for every such announcement, which of them is open (log entry 35): either every well-formed
announcement at station count 0 is refused with No Such Station, as R162 says, or every one whose source matches no node with
Source, as R5 says. A source that matches a node, which no run reaches at station count 0, gives No Such Station by either. -/
def Obligations.RefusedAnnouncementIsLogged : Prop :=
  (∀ (s : State) (source : Node) (bodyId : BodyId) (station origin : Octet) (style options : BitVec 16) (variant : Octet),
    s.ports.uplinkUp = true → bodyId = 0 ∨ style = 0 ∨ style = 65535 ∨ 1 < origin.toNat →
    exec (.announce source bodyId station origin style options variant) s = .next (settleNotice s
      { s with
        events :=
          { s.events with
            frameErrors := bump s.events.frameErrors
            flags := s.events.flags ||| (1#29 <<< 17) } })) ∧
  (∀ (s : State) (source : Node) (bodyId : BodyId) (station origin : Octet) (style options : BitVec 16) (variant : Octet)
    (reason : RefusalReason),
    s.hearsAnnounce source bodyId origin style → s.tracker.stationCount ≠ 0 →
    (reason =
      if ¬s.knowsSource source then .source
      else if 3 < station.toNat ∨ s.tracker.stationCount ≤ station.toNat then .noSuchStation
      else
        let x := s.station (Fin.ofNat 4 station.toNat)
        if x.state = .offline then .stationOffline
        else if s.banks.validated = false then .noTables
        else if ∃ r ∈ x.queue, r.bodyId = bodyId then .duplicate
        else .queueFull) →
    (reason = .queueFull →
      4 ≤ (s.station (Fin.ofNat 4 station.toNat)).queue.length ∨ 16 ≤ s.recordsInUse.length) →
    exec (.announce source bodyId station origin style options variant) s =
      .next (s.announcementRefused bodyId station reason)) ∧
  (∀ (s : State) (source : Node) (bodyId : BodyId) (station origin : Octet) (style options : BitVec 16) (variant : Octet),
    s.hearsAnnounce source bodyId origin style → s.tracker.stationCount = 0 → s.knowsSource source →
    exec (.announce source bodyId station origin style options variant) s =
      .next (s.announcementRefused bodyId station .noSuchStation)) ∧
  ((∀ (s : State) (source : Node) (bodyId : BodyId) (station origin : Octet) (style options : BitVec 16)
      (variant : Octet),
      s.hearsAnnounce source bodyId origin style → s.tracker.stationCount = 0 →
      exec (.announce source bodyId station origin style options variant) s =
        .next (s.announcementRefused bodyId station .noSuchStation)) ∨
    (∀ (s : State) (source : Node) (bodyId : BodyId) (station origin : Octet) (style options : BitVec 16)
      (variant : Octet),
      s.hearsAnnounce source bodyId origin style → s.tracker.stationCount = 0 → ¬s.knowsSource source →
      exec (.announce source bodyId station origin style options variant) s =
        .next (s.announcementRefused bodyId station .source)))

/-- R6, R7, R11, R12, R13, R15, R17, R52, R95, R97, R98, R126: an announcement that no condition refuses makes a record with the
ACTIVE bank's tag, that bank's row for the style, and the variant, 4 to 255 taken as 3 with Station Warning. At a station that is
not IDLE, under a Section Hold, and where it does not come to the front, the record joins the Station Queue by its origin, and
nothing else changes: an IDLE station stays IDLE (R134). At an IDLE station where it stands at the front, the head start condition
is tested (SetStationMovesTheStation). At an IDLE station with an empty queue, no Section Hold, and a known style, the record is
the head at once, under the ready limit of that moment (R11, log entry 36), with an entry for each slot with a plan, in ascending
position, resolved one after the other (R68, R85, R86). A slot without a fault is SELECTED with its next tag, its SELECT behind
what waits for other slots; one with a fault of a kind has the kind in its fault set and is, under that kind's mode, SELECTED and
warned (WARN), FAULTED without a SELECT (PASS) or WAITING and held (HOLD), its SLOT FAULT record offered (R178, log entry 17). If
every entry has ended and none is held, as where no slot has a plan, the head is released at once, CLEAN or, with a FAULTED entry,
FAULTED; else the station is HELD where an entry is held, and DISPATCHING where none is. So where some slot has a plan and none a
fault, the SELECTs of all leave together and the station is DISPATCHING. -/
def Obligations.AcceptedAnnouncementJoinsTheQueue : Prop :=
  ∀ (s : State) (source : Node) (bodyId : BodyId) (st : StationId) (origin : Octet) (style options : BitVec 16)
    (variant : Octet),
    s.ports.uplinkUp = true → source ≠ 0 → source ≠ 65535 → source ≠ s.filter.ownNode →
    bodyId ≠ 0 → style ≠ 0 → style ≠ 65535 → origin.toNat ≤ 1 →
    s.filter.controllerNode = some source ∨ s.filter.trackerNode = some source →
    st.val < s.tracker.stationCount → (s.station st).state ≠ .offline →
    s.banks.validated = true → (∀ r ∈ (s.station st).queue, r.bodyId ≠ bodyId) →
    (s.station st).queue.length < 4 → s.recordsInUse.length < 16 →
    let r : BodyRecord :=
      { bodyId := bodyId, station := st, style := style
        row := (s.banks.tables s.banks.active).styleRow? style
        options := options, variant := if 3 < variant.toNat then 3 else variant.toNat
        origin := if origin = 0 then .normal else .rework
        bankTag := s.banks.active, state := .queued, announcedAt := s.lineTime, startedAt := none, releasedAt := none
        entries := [], bodyHeld := false, outcome := none }
    let joined := { s with
      tracker := { s.tracker with
        stations := s.tracker.stations.set st { s.station st with queue := joinQueue (s.station st).queue r } } }
    let warned := if 3 < variant.toNat then joined.flagged (1#29 <<< (4 + st.val)) else joined
    let atFront := (joinQueue (s.station st).queue r).head? = some r
    ((s.station st).state ≠ .idle ∨ s.sectionHold = true ∨ ¬atFront →
      exec (.announce source bodyId (BitVec.ofNat 8 st.val) origin style options variant) s =
        .next (if 3 < variant.toNat then settleNotice s warned else joined)) ∧
    ((s.station st).state = .idle → atFront →
      exec (.announce source bodyId (BitVec.ofNat 8 st.val) origin style options variant) s =
        .next (settleNotice s (warned.testStation st))) ∧
    (∀ row, (s.station st).state = .idle → (s.station st).queue = [] → s.sectionHold = false → r.row = some row →
      let found := s.resolutions st s.banks.active row r.variant options
      let base := if 3 < variant.toNat then s.flagged (1#29 <<< (4 + st.val)) else s
      let started : BodyRecord := { r with state := .active, startedAt := some s.lineTime }
      let head : BodyRecord := { started with entries := found.map fun x => s.startedEntry x.1 x.2 }
      let u := base.startedHead st started [] found
      u.station st = { s.station st with headLimit := (s.station st).readyLimit, queue := [head] } ∧
      exec (.announce source bodyId (BitVec.ofNat 8 st.val) origin style options variant) s = .next (settleNotice s (
        if ∀ e ∈ head.entries, e.ended = true ∧ e.held = false then
          u.released st head [] (if ∃ e ∈ head.entries, e.state = .faulted then .faulted else .clean)
        else { u with tracker := { u.tracker with stations := u.tracker.stations.set st { u.station st with
          state := if ∃ e ∈ head.entries, e.held = true then StationState.held else .dispatching } } })) ∧
      (found ≠ [] → (∀ x ∈ found, x.2.fault = none) →
        exec (.announce source bodyId (BitVec.ofNat 8 st.val) origin style options variant) s =
          .next (settleNotice s (base.selecting st started [] found))))

/-- R7: a NORMAL record joins at the back. In a queue in which no REWORK record stands behind a NORMAL one that is QUEUED, which
joining keeps so, a REWORK record joins behind an ACTIVE front record and behind every REWORK record, ahead of every NORMAL
record that is QUEUED. The other records keep their order. -/
def Obligations.ReworkRecordJoinsAheadOfNormalOnes : Prop :=
  ∀ (queue : List BodyRecord) (r : BodyRecord),
    (r.origin = .normal → joinQueue queue r = queue ++ [r]) ∧
      (r.origin = .rework → ∃ ahead behind, queue = ahead ++ behind ∧ joinQueue queue r = ahead ++ r :: behind ∧
        (∀ x ∈ ahead, x.origin = .rework ∨ x.state ≠ .queued) ∧
        (∀ x, behind.head? = some x → x.origin = .normal ∧ x.state = .queued) ∧
        (reworkFirst queue → ∀ x ∈ behind, x.origin = .normal)) ∧
      (reworkFirst queue → reworkFirst (joinQueue queue r))

/-- R14, R17, R18, R129, R171: a body of a style the ACTIVE bank does not know, announced for an IDLE station with an empty queue,
becomes the head at once, without slot entries. Under HOLD, the mode for Unknown Style, it is held and the station HELD, with
Station Held set; under PASS it is released at once with outcome FAULTED. A variant of 4 or more is taken as 3 and sets Station
Warning as for every announcement (R6). -/
def Obligations.UnknownStyleHeadIsHeld : Prop :=
  ∀ (s : State) (source : Node) (bodyId : BodyId) (st : StationId) (origin : Octet) (style options : BitVec 16)
    (variant : Octet),
    s.ports.uplinkUp = true → source ≠ 0 → source ≠ 65535 → source ≠ s.filter.ownNode →
    bodyId ≠ 0 → style ≠ 0 → style ≠ 65535 → origin.toNat ≤ 1 →
    s.filter.controllerNode = some source ∨ s.filter.trackerNode = some source →
    st.val < s.tracker.stationCount → (s.station st).state = .idle → (s.station st).queue = [] →
    s.banks.validated = true → s.recordsInUse.length < 16 → s.sectionHold = false →
    (s.banks.tables s.banks.active).styleRow? style = none →
    let head : BodyRecord :=
      { bodyId := bodyId, station := st, style := style, row := none, options := options
        variant := if 3 < variant.toNat then 3 else variant.toNat
        origin := if origin = 0 then .normal else .rework
        bankTag := s.banks.active, state := .active, announcedAt := s.lineTime, startedAt := some s.lineTime
        releasedAt := none, entries := [], bodyHeld := false, outcome := none }
    let base := if 3 < variant.toNat then s.flagged (1#29 <<< (4 + st.val)) else s
    (s.mode st .unknownStyle = .hold →
      exec (.announce source bodyId (BitVec.ofNat 8 st.val) origin style options variant) s = .next (settleNotice s
        { base with
          tracker :=
            { s.tracker with
              stations := s.tracker.stations.set st
                { s.station st with state := .held, queue := [{ head with bodyHeld := true }] } }
          events := { base.events with flags := base.events.flags ||| (1#29 <<< st.val) } })) ∧
    (s.mode st .unknownStyle = .pass →
      exec (.announce source bodyId (BitVec.ofNat 8 st.val) origin style options variant) s =
        .next (settleNotice s (base.released st head [] .faulted)))

/-! ## Resolution and currents -/

/-- R53, R54, R55, R56, R57, R58, R63, R65, R66, R67, R68, R87: the variant offset, clamped at a variant of the span or more, which
a base plan of 0 does not meet. Table 3-1: the first taken SUBSTITUTE stands in the base position, else the matrix plan, else the
first taken APPEND, and every other taken APPEND follows in list order; with none of them there is no plan. A resolution is NO
PLAN exactly where the cell has no base plan and no overlay matches. Else it takes the matching overlays, at most three, in
ascending position: those of its option flag, its slot, and its row or ANY; a matching one not taken stands behind three taken
ones. The plans of Table 3-1 are expanded in order. A failure leaves its kind, no program, groups, planned spots or marks, and
the fault Expansion Error. Else the entry has the base-position plan's program, each group with the current the gun's wear and
ceiling give it, the sum of their spots, the marks of the gun, and, where the mode for Wear Overrun is not OFF and the gun's wear
has reached its hard limit, the fault Wear Overrun. It is warned exactly for a variant clamp, a match not taken or a clamped
current. -/
def Obligations.VariantAndOverlaysChooseThePlans : Prop :=
  (∀ (plan span variant : Nat), 0 < plan → 1 ≤ span → span ≤ 4 → variant ≤ 3 →
    variantPlan ⟨plan, span⟩ variant = (some (plan + min variant (span - 1)), decide (span ≤ variant)) ∧
      variantPlan ⟨0, span⟩ variant = (none, false)) ∧
  (∀ (standing : Option Nat) (taken : List OverlayEntry),
    let substitutes := taken.filter fun e => e.action == .substitute
    let appends := taken.filter fun e => e.action == .append
    overlaidPlans standing taken =
      match substitutes.head?, standing with
      | some e, _ => some (e.plan, appends.map (·.plan))
      | none, some plan => some (plan, appends.map (·.plan))
      | none, none => appends.head?.map fun e => (e.plan, appends.tail.map (·.plan))) ∧
  (∀ (t : Tables) (gun : Gun) (overrunTested : Bool) (row variant : Nat) (options : BitVec 16) (g : SlotId),
    t.wf = true →
    let cell := t.cell (32 * row + g.val)
    let hit := fun (i : Nat) => ∃ e, tableGet t.overlays i = some e ∧ options.getLsbD e.optionBit = true ∧ e.slot = g.val ∧
      (e.row = none ∨ e.row = some row)
    (resolve t gun overrunTested row variant options g = none ↔ cell.basePlan = 0 ∧ ∀ i, ¬hit i) ∧
    (∀ x, resolve t gun overrunTested row variant options g = some x →
      x.overlays.length ≤ 3 ∧ x.overlays.Pairwise (· < ·) ∧ (∀ i ∈ x.overlays, hit i) ∧
      (∀ i, hit i → i ∉ x.overlays → x.overlays.length = 3 ∧ ∀ j ∈ x.overlays, j < i) ∧
      (x.warned = true ↔ (variantPlan cell variant).2 = true ∨ x.clamp = true ∨ ∃ i, hit i ∧ i ∉ x.overlays) ∧
      ∃ appended,
        overlaidPlans (variantPlan cell variant).1 (x.overlays.filterMap (tableGet t.overlays)) =
            some (x.effectivePlan, appended) ∧
          ((∃ k, expandAll t (x.effectivePlan :: appended) [] = .error k ∧ x.expansionError = some k ∧ x.program = none ∧
              x.groups = [] ∧ x.plannedSpots = none ∧ x.clamp = false ∧ x.dressRequested = false ∧
              x.wearUnconfirmed = false ∧ x.fault = some .expansionError) ∨
            ∃ groups, expandAll t (x.effectivePlan :: appended) [] = .ok groups ∧ x.expansionError = none ∧
              x.program = (t.plan? x.effectivePlan).map (·.program) ∧
              x.groups = groups.map (fun y => ⟨y.schedule, y.spots, y.entry.weldTime,
                steppedCurrent y.entry.base (curveRaise y.curve gun.wear) gun.ceiling⟩) ∧
              x.plannedSpots = some (groups.map (·.spots)).sum ∧
              (x.clamp = true ↔
                ∃ y ∈ groups, currentClamped y.entry.base (curveRaise y.curve gun.wear) gun.ceiling = true) ∧
              (x.dressRequested = true ↔ gun.dressLimit ≤ gun.wear) ∧ x.wearUnconfirmed = gun.wearUnknown ∧
              x.fault = if overrunTested = true ∧ gun.hardLimit ≤ gun.wear then some .wearOverrun else none)))

/-- R59, R60, R61, R62, R63: plans are expanded one after the other into one buffer up to the first failure, and an expansion
that does not fail leaves at most 24 groups, those it began with in front and in their order. A plan that is not empty adds the
groups its steps lay out in their order: a GROUP step one group, with its spots, its schedule's entry and that entry's curve; a
CALL the called plan's groups in its place, and then those of the steps behind the CALL. It fails exactly when it is empty, with
kind missing, or with the kind of the first test of its steps that fails. A CALL at depth 4 fails with kind
depth, before the plan it names is looked at: a chain of plans, each of which begins with a CALL of the next, fails so from its
sixth plan on. A chain of at most five plans, each of them only a CALL of the next, expands to what its last plan does, and fails
with kind missing where that plan is empty. A GROUP step met with 24 groups in the buffer fails with kind length, before the
schedule it names is looked at; with fewer it fails with kind missing where that schedule, or the curve above 0 that it names, is
empty. -/
def Obligations.ExpansionLeavesAtMost24Groups : Prop :=
  ∀ (t : Tables) (buffer : List ExpandedGroup), buffer.length ≤ 24 →
    (∀ (plans : List Nat) (groups : List ExpandedGroup), expandAll t plans buffer = .ok groups →
      groups.length ≤ 24 ∧ ∃ added, groups = buffer ++ added) ∧
    (∀ (p : Nat) (plans : List Nat), expandAll t (p :: plans) buffer =
      match expandTop t p buffer with
      | .ok groups => expandAll t plans groups
      | .error k => .error k) ∧
    (∀ (p : Nat) (groups : List ExpandedGroup), expandTop t p buffer = .ok groups ↔
      ∃ e added, t.plan? p = some e ∧ LaidOut t 0 e.steps added ∧ groups = buffer ++ added ∧ groups.length ≤ 24) ∧
    (∀ (p : Nat) (k : ExpansionErrorKind), expandTop t p buffer = .error k ↔
      (t.plan? p = none ∧ k = .missing) ∨ ∃ e, t.plan? p = some e ∧ StepsFail t 0 e.steps buffer.length k) ∧
    (∀ (p : Nat) (chain : List Nat),
      (∀ k x y, (p :: chain)[k]? = some x → (p :: chain)[k + 1]? = some y →
        ∃ e, t.plan? x = some e ∧ e.steps.head? = some (.call y)) →
      5 ≤ chain.length → expandTop t p buffer = .error .depth) ∧
    (∀ (p last : Nat) (chain : List Nat),
      (∀ k x y, (p :: chain)[k]? = some x → (p :: chain)[k + 1]? = some y →
        ∃ e, t.plan? x = some e ∧ e.steps = [.call y]) →
      chain.length ≤ 4 → (p :: chain).getLast? = some last →
      (t.plan? last = none → expandTop t p buffer = .error .missing) ∧
      (∀ e, t.plan? last = some e → (∀ y, PlanStep.call y ∉ e.steps) → expandTop t p buffer = expandTop t last buffer)) ∧
    (∀ (p : Nat) (e : PlanEntry) (schedule spots : Nat),
      t.plan? p = some e → e.steps.head? = some (.group schedule spots) →
      (buffer.length = 24 → expandTop t p buffer = .error .length) ∧
      (buffer.length < 24 →
        t.schedule? schedule = none ∨
          (∃ x, t.schedule? schedule = some x ∧ x.curve ≠ 0 ∧ t.curve? x.curve = none) →
        expandTop t p buffer = .error .missing))

/-- R82, R83, R84: without a curve the raise is 0. Along a curve whose wear counts rise and whose raises do not fall (R31) it is
the first raise up to the first breakpoint, the last from the last breakpoint on, and between two breakpoints the first of them
and the whole part of the line to the second; it lies between the first and the last raise. The current is the base raised by it,
rounded half up, and held at the ceiling, where the group is clamped. So a current is at least the smaller of base and ceiling
and at most the ceiling, and never falls as the gun's wear grows. -/
def Obligations.CurrentNeverFallsAsWearGrows : Prop :=
  (∀ (curve : List Breakpoint) (base ceiling wear wear' : Nat), curveOrdered curve = true → wear ≤ wear' →
    min base ceiling ≤ steppedCurrent base (curveRaise curve wear) ceiling ∧
      steppedCurrent base (curveRaise curve wear) ceiling ≤ steppedCurrent base (curveRaise curve wear') ceiling ∧
      steppedCurrent base (curveRaise curve wear') ceiling ≤ ceiling) ∧
  (∀ (base raise ceiling : Nat),
    let unclamped := (base * (1000 + raise) + 500) / 1000
    steppedCurrent base raise ceiling = (if unclamped ≤ ceiling then unclamped else ceiling) ∧
      (currentClamped base raise ceiling = true ↔ ceiling < unclamped)) ∧
  (∀ wear : Nat, curveRaise [] wear = 0) ∧
  (∀ (curve : List Breakpoint) (wear : Nat), curveOrdered curve = true →
    (∀ x, curve.head? = some x → x.raise ≤ curveRaise curve wear ∧ (wear ≤ x.wear → curveRaise curve wear = x.raise)) ∧
    (∀ x, curve.getLast? = some x → curveRaise curve wear ≤ x.raise ∧ (x.wear ≤ wear → curveRaise curve wear = x.raise)) ∧
    (∀ k x y, curve[k]? = some x → curve[k + 1]? = some y → x.wear ≤ wear → wear < y.wear →
      curveRaise curve wear = x.raise + (y.raise - x.raise) * (wear - x.wear) / (y.wear - x.wear)))

/-! ## The slot handshake -/

/-- R99, R103, R153: a SELECT that leaves the Cell port, as the frame TransmittedFramesLeaveTheirQueues lays out, sets its entry's
selected at and, where the mode for Ready Timeout is not OFF, starts the ready timer with the station's ready limit, the one set
before the head started (R11, log entry 36). -/
def Obligations.SelectTransmitStartsTheReadyTimer : Prop :=
  ∀ (s : State) (x : CellTelegram) (c : SelectContent) (rest : List CellTelegram),
    s.ports.cellUp = true → s.ports.cellOwn = x :: rest → x.body = .select c → (s.tagOwner? x.slot).isSome = true →
    let st := stationOf x.slot
    exec .selectTransmit s = .next
      { s with
        ports := { s.ports with cellOwn := rest, cellTx := some x.frame }
        tags := s.tags.set x.slot
          { s.tagState x.slot with
            readyTimer :=
              if s.mode st .readyTimeout = .off then (s.tagState x.slot).readyTimer
              else some (s.lineTime + BitVec.ofNat 32 (s.station st).headLimit) }
        tracker :=
          { s.tracker with
            stations := s.tracker.stations.set st ((s.station st).modifyHead fun r =>
              r.modifyEntry (positionOf x.slot) fun e => { e with selectedAt := some s.lineTime }) } }

/-- R104, R108, R109, R110, R125, R126, R132, R178: a READY for an entry in SELECTED whose fault set does not hold Ready Refused
stops the ready timer. LOADED with the entry's program brings the entry to LOADED, and starts the cycle timer where the effective
plan has a cycle maximum and the mode for Cycle Timeout is not OFF. REFUSED, whose reason the entry keeps, and LOADED with another
program, are the fault Ready Refused, taken under its mode: under HOLD entry and station are held, under PASS the selection is
called off and the entry FAULTED, and at the last entry still working, with none held, the head is released FAULTED and its
station tests the next head (R12, R16, R17, R18); its SLOT FAULT record is offered to the Mirror Channels (log entry 17). -/
def Obligations.ReadyLoadedLoadsTheEntry : Prop :=
  ∀ (s : State) (source : Node) (tag : Tag) (reason program : Octet) (g : SlotId) (e : SlotEntry),
    s.answersFor source tag g e → e.state = .selected → hasFault e.faults .readyRefused = false →
    let st := stationOf g
    let cycleMax := ((s.effectivePlan? g).map (·.cycleMax)).getD 0
    let stopped := { s with tags := s.tags.set g { s.tagState g with readyTimer := none } }
    (e.program = some program.toNat → exec (.ready source tag 1 reason program) s = .next
      { s with
        tags := s.tags.set g
          { s.tagState g with
            readyTimer := none
            cycleTimer :=
              if cycleMax ≠ 0 ∧ s.mode st .cycleTimeout ≠ .off then some (s.lineTime + BitVec.ofNat 32 cycleMax)
              else none }
        tracker :=
          { s.tracker with
            stations := s.tracker.stations.set st ((s.station st).modifyHead fun r =>
              r.modifyEntry (positionOf g) fun e => { e with state := .loaded, readyAt := some s.lineTime }) } }) ∧
    ((s.mode st .readyRefused = .pass → s.othersWork g) →
      exec (.ready source tag 2 reason program) s = .next (settleNotice s
        ((stopped.modifyEntry g fun e => { e with refusalReason := some reason.toNat }).faulted g .readyRefused)) ∧
      (e.program ≠ some program.toNat → exec (.ready source tag 1 reason program) s = .next (settleNotice s
        (stopped.faulted g .readyRefused)))) ∧
    s.finishesTo (.ready source tag 2 reason program) st
      ((stopped.modifyEntry g fun e => { e with refusalReason := some reason.toNat }).faulted g .readyRefused) ∧
    (e.program ≠ some program.toNat →
      s.finishesTo (.ready source tag 1 reason program) st (stopped.faulted g .readyRefused))

/-- R16, R17, R18, R89, R90, R91, R111, R112, R113, R125, R128, R178: a DONE for an entry in SELECTED or LOADED stops the slot's
timers, ends the entry with its spots, and updates the gun's wear: spots added unless the station is Dry, then a reported dress.
It reveals Short Cycle, Spot Shortfall and Quality Reject where the mode is not OFF, and the strongest of their modes governs:
under HOLD the entry is held and a DISPATCHING station HELD, under PASS the entry is FAULTED, under WARN it is warned. The SLOT
DONE record, and a SLOT FAULT record for each kind, are offered to the Mirror Channels in ascending number (log entry 17). Where
no entry is left that has not ended or is held, the head is released, CLEAN or FAULTED, and its station tests the next head; while
one is, as where an earlier held mark still stands, the head stays, and a HELD station stays HELD. That an entry without selected
at or ready at, which no run reaches, gives a cycle time of 0 is log entry 32. -/
def Obligations.DoneFinishesTheEntryAndWearsTheGun : Prop :=
  ∀ (s : State) (source : Node) (tag : Tag) (spots quality dressed : Octet) (g : SlotId) (e : SlotEntry),
    s.answersFor source tag g e → e.state = .selected ∨ e.state = .loaded → quality = 1 ∨ quality = 2 →
    dressed.toNat ≤ 1 →
    let st := stationOf g
    let x := s.station st
    let gun := s.gun g
    let worn :=
      if dressed = 1 then
        { gun with wear := 0, dressDue := false, wearUnknown := false, dressCount := bump gun.dressCount }
      else if x.dry then gun
      else { gun with wear := min (gun.wear + spots.toNat) 65535 }
    let kinds := s.doneFaults g e spots.toNat (quality == 2)
    let cycle := (s.lineTime - (if e.state = .loaded then e.readyAt else e.selectedAt).getD s.lineTime).toNat
    let cycleMin := ((s.effectivePlan? g).map (·.cycleMin)).getD 0
    let under := fun (m : FaultMode) => kinds.any fun k => s.mode st k == m
    let ended : State := { s with
      tags := s.tags.set g { s.tagState g with readyTimer := none, cycleTimer := none }
      guns := s.guns.set g worn
      tracker := { s.tracker with stations := s.tracker.stations.set st { (x.modifyHead fun r =>
        r.modifyEntry (positionOf g) fun e => { e with
          spotsWelded := some spots.toNat
          faults := kinds.foldl (fun f k => f ||| (1#8 <<< k.number.val)) e.faults
          state := if under .hold = false ∧ under .pass = true then .faulted else .finished
          held := e.held || under .hold
          warned := e.warned || (!under .hold && !under .pass && under .warn) }) with
        state := if under .hold = true ∧ x.state = .dispatching then .held else x.state } }
      events := { s.events with
        flags := s.events.flags ||| (
          if under .hold = true then 1#29 <<< st.val
          else if under .pass = false ∧ under .warn = true then 1#29 <<< (4 + st.val)
          else 0) } }
    let recorded := kinds.foldl (fun u k => u.faultOffered g k) (ended.doneOffered g)
    (quality = 1 → kinds = [] → s.othersWork g → s.unmirrored st .slotDone →
      exec (.done source tag spots 1 dressed) s = .next
      { s with
        tags := s.tags.set g { s.tagState g with readyTimer := none, cycleTimer := none }
        tracker :=
          { s.tracker with
            stations := s.tracker.stations.set st (x.modifyHead fun r =>
              r.modifyEntry (positionOf g) fun e => { e with spotsWelded := some spots.toNat, state := .finished }) }
        guns := s.guns.set g worn }) ∧
    (∀ k, k ∈ kinds ↔ s.mode st k ≠ .off ∧ (
      (k = .shortCycle ∧ cycleMin ≠ 0 ∧ cycle < cycleMin) ∨ (k = .spotShortfall ∧ spots.toNat < e.plannedSpots.getD 0) ∨
        (k = .qualityReject ∧ quality = 2))) ∧
    ((under .hold = true ∨ s.othersWork g → exec (.done source tag spots quality dressed) s =
        .next (settleNotice s recorded)) ∧
      s.finishesTo (.done source tag spots quality dressed) st recorded)

/-- R92, R106, R107: a READY or DONE that does not match is counted at the station and changes no entry, no timer and no tag
state; a Late DONE alone still wears the gun. Stale: tag 0; the current tag while its SELECT still waits; the cancelled tag of
a READY; any other tag. Late: the cancelled tag of a DONE. Duplicate: the current tag where its owner has ended or is none, and
a READY for an entry in LOADED, or in SELECTED with Ready Refused in its fault set. -/
def Obligations.StaleAndLateTelegramsAreOnlyCounted : Prop :=
  ∀ (s : State) (source : Node) (tag : Tag) (verdict reason program spots quality dressed : Octet) (g : SlotId),
    s.ports.cellUp = true → source ≠ 0 → source ≠ 65535 → source ≠ s.filter.ownNode →
    s.slotOfNode? source = some g → (verdict = 1 ∨ verdict = 2) → (quality = 1 ∨ quality = 2) → dressed.toNat ≤ 1 →
    let st := stationOf g
    let x := s.station st
    let stale := { s with
      tracker := { s.tracker with
        stations := s.tracker.stations.set st
          { x with counters := { x.counters with stale := bump x.counters.stale } } } }
    let late := { s with
      tracker := { s.tracker with
        stations := s.tracker.stations.set st
          { x with counters := { x.counters with late := bump x.counters.late } } } }
    let duplicate := { s with
      tracker := { s.tracker with
        stations := s.tracker.stations.set st
          { x with counters := { x.counters with duplicate := bump x.counters.duplicate } } } }
    exec (.ready source 0 verdict reason program) s = .next stale ∧
      exec (.done source 0 spots quality dressed) s = .next stale ∧
      (tag ≠ 0 → tag ≠ (s.tagState g).current → tag = (s.tagState g).cancelled →
        exec (.ready source tag verdict reason program) s = .next stale ∧
        exec (.done source tag spots quality dressed) s = .next
          { late with
            guns := s.guns.set g
              (if dressed = 1 then
                { s.gun g with wear := 0, dressDue := false, wearUnknown := false,
                               dressCount := bump (s.gun g).dressCount }
              else if x.dry then s.gun g
              else { s.gun g with wear := min ((s.gun g).wear + spots.toNat) 65535 }) }) ∧
      (tag ≠ 0 → tag ≠ (s.tagState g).current → tag ≠ (s.tagState g).cancelled →
        exec (.ready source tag verdict reason program) s = .next stale ∧
        exec (.done source tag spots quality dressed) s = .next stale) ∧
      (tag ≠ 0 → tag = (s.tagState g).current →
        ((∀ e, s.tagOwner? g = some e → e.ended = true) →
          exec (.ready source tag verdict reason program) s = .next duplicate ∧
          exec (.done source tag spots quality dressed) s = .next duplicate) ∧
        (∀ e, s.tagOwner? g = some e → e.state = .selected ∨ e.state = .loaded →
          (s.selectWaiting g = true →
            exec (.ready source tag verdict reason program) s = .next stale ∧
            exec (.done source tag spots quality dressed) s = .next stale) ∧
          (s.selectWaiting g = false → e.state = .loaded ∨ hasFault e.faults .readyRefused = true →
            exec (.ready source tag verdict reason program) s = .next duplicate)))

/-- R100, R102, R103, R104, R125, R127, R132, R178: a running timer whose expiry line time has reached stops, and its kind is
taken under its mode: under HOLD it joins the entry's fault set with a held mark, Station Held is set, and a DISPATCHING station
becomes HELD; under WARN the entry is warned; under PASS the selection is called off and the entry FAULTED, and at the last entry
still working, with none held, the head is released FAULTED and its station tests the next head (R12, R16, R17, R18); under OFF
nothing more. The SLOT FAULT record of a fault taken is offered to the Mirror Channels (log entry 17). By the model's choice (log
entry 3) the command of a timer that is stopped, or whose expiry lies ahead, does nothing. -/
def Obligations.TimeoutUnderHoldHoldsTheStation : Prop :=
  ∀ (s : State) (g : SlotId) (expiry : LineTime),
    let st := stationOf g
    let due := (s.lineTime - expiry).toNat < 2 ^ 31
    let held := fun (k : FaultKind) =>
      { s.tracker with
        stations := s.tracker.stations.set st
          { (s.station st).modifyHead (fun r => r.modifyEntry (positionOf g) fun e =>
              { e with faults := e.faults ||| (1#8 <<< k.number.val), held := true }) with
            state := if (s.station st).state = .dispatching then .held else (s.station st).state } }
    let flagged := { s.events with flags := s.events.flags ||| (1#29 <<< st.val) }
    ((s.tagState g).readyTimer = some expiry → due → (s.tagOwner? g).isSome = true → s.unmirrored st .slotFault →
      s.mode st .readyTimeout = .hold → exec (.readyTimeout g) s = .next (settleNotice s
        { s with
          tags := s.tags.set g { s.tagState g with readyTimer := none }
          tracker := held .readyTimeout
          events := flagged })) ∧
      ((s.tagState g).cycleTimer = some expiry → due → (s.tagOwner? g).isSome = true → s.unmirrored st .slotFault →
        s.mode st .cycleTimeout = .hold → exec (.cycleTimeout g) s = .next (settleNotice s
          { s with
            tags := s.tags.set g { s.tagState g with cycleTimer := none }
            tracker := held .cycleTimeout
            events := flagged })) ∧
      (∀ e, s.tagOwner? g = some e → e.state = .selected ∨ e.state = .loaded → (s.tagState g).current ≠ 0 →
        due →
        ((s.tagState g).readyTimer = some expiry → (s.mode st .readyTimeout = .pass → s.othersWork g) →
          exec (.readyTimeout g) s = .next (settleNotice s
            (State.faulted { s with tags := s.tags.set g { s.tagState g with readyTimer := none } } g .readyTimeout))) ∧
        ((s.tagState g).cycleTimer = some expiry → (s.mode st .cycleTimeout = .pass → s.othersWork g) →
          exec (.cycleTimeout g) s = .next (settleNotice s
            (State.faulted { s with tags := s.tags.set g { s.tagState g with cycleTimer := none } } g .cycleTimeout))) ∧
        ((s.tagState g).readyTimer = some expiry → s.finishesTo (.readyTimeout g) st
          (State.faulted { s with tags := s.tags.set g { s.tagState g with readyTimer := none } } g .readyTimeout)) ∧
        ((s.tagState g).cycleTimer = some expiry → s.finishesTo (.cycleTimeout g) st
          (State.faulted { s with tags := s.tags.set g { s.tagState g with cycleTimer := none } } g .cycleTimeout))) ∧
      ((s.tagState g).readyTimer = none ∨ ((s.tagState g).readyTimer = some expiry ∧ ¬due) →
        exec (.readyTimeout g) s = .next s) ∧
      ((s.tagState g).cycleTimer = none ∨ ((s.tagState g).cycleTimer = some expiry ∧ ¬due) →
        exec (.cycleTimeout g) s = .next s)

/-! ## The Uplink own-telegram queue -/

/-- R20, R48, R191: a RELEASE that leaves the Uplink port frees its record; where that leaves no record with the DRAINING bank's
tag, the bank becomes SHADOW and Bank Drained is set. The body of the RELEASE and its slot entries are laid out field by field. -/
def Obligations.ReleaseTransmitFreesTheRecord : Prop :=
  (∀ r : BodyRecord, releaseOctets r =
    Octets.be4 r.bodyId ++ Octets.nat1 r.station.val ++
      Octets.nat1 (match r.origin with | .normal => 0 | .rework => 1) ++
      Octets.be2 r.style ++ Octets.opt1 r.row ++ Octets.be2 r.options ++ Octets.nat1 r.variant ++
      Octets.nat1 (match r.bankTag with | .a => 0 | .b => 1) ++
      Octets.nat1 (match r.outcome with | some .clean => 0 | some .faulted => 1 | some .aborted => 2 | none => 255) ++
      [if r.startedAt = none then 0 else 1] ++
      Octets.be4 r.announcedAt ++ Octets.be4 (r.startedAt.getD 0) ++ Octets.be4 (r.releasedAt.getD 0) ++
      Octets.nat1 r.entries.length ++ r.entries.flatMap entryOctets) ∧
  (∀ e : SlotEntry, entryOctets e =
    Octets.nat1 e.position.val ++
      Octets.nat1 (match e.state with
        | .waiting => 0 | .selected => 1 | .loaded => 2 | .finished => 3 | .faulted => 4 | .cancelled => 5) ++
      Octets.nat2 e.effectivePlan ++ Octets.nat1 (e.program.getD 0) ++ Octets.nat2 (e.plannedSpots.getD 0) ++
      Octets.opt2 e.spotsWelded ++
      [e.faults,
        (if e.warned = true then 1 else 0) ||| (if e.clamp = true then 2 else 0) |||
          (if e.dressRequested = true then 4 else 0) ||| (if e.wearUnconfirmed = true then 8 else 0) |||
          (if e.held = true then 16 else 0)] ++
      Octets.opt2 e.refusalReason ++
      Octets.nat1 (match e.expansionError with | none => 0 | some .depth => 1 | some .length => 2 | some .missing => 3) ++
      Octets.be2 (e.tag.getD 0) ++ Octets.nat1 e.overlays.length ++
      ((e.overlays ++ [0, 0, 0]).take 3).flatMap Octets.nat1) ∧
  ∀ (s : State) (v : Envelope) (r : BodyRecord) (rest : List UplinkTelegram),
    s.ports.uplinkUp = true → s.ports.uplinkOwn = .release v r :: rest →
    let u :=
      { s with
        ports :=
          { s.ports with uplinkOwn := rest, uplinkTx := some (telegramFrame .uplink 0x20 v (releaseOctets r)) } }
    s.recordsInUse.length = u.recordsInUse.length + 1 ∧
      exec .releaseTransmit s = .next (
        if s.banks.other = .draining ∧ u.tagCount s.banks.active.other = 0 then
          settleNotice s
            { u with
              banks := { s.banks with other := .shadow, loadIncomplete := false }
              events := { s.events with flags := s.events.flags ||| (1#29 <<< 10) } }
        else u)

/-- R152, R156, R158, R174, R191, R192: a REPLY that leaves the Uplink port takes its answered entry from the front of the
Request Queue, and a REPLY to any request but RESTART does nothing else. A NOTICE takes its content and addresses when it is
transmitted, and clears the pending-notice marker. -/
def Obligations.ReplyAndNoticeTransmitReportToTheirOwners : Prop :=
  ∀ (s : State) (rest : List UplinkTelegram), s.ports.uplinkUp = true →
    (∀ (v : Envelope) (number : BitVec 16) (code : Octet) (result : ResultCode) (summary : Octet) (data : List Octet)
      (e : RequestEntry) (waiting : List RequestEntry),
      s.ports.uplinkOwn = .reply v number code result summary data :: rest → code ≠ 0x54 →
      s.agent.requests = e :: waiting → e.answered = true →
      exec .replyTransmit s = .next
        { s with
          agent := { s.agent with requests := waiting }
          ports :=
            { s.ports with
              uplinkOwn := rest
              uplinkTx := some (telegramFrame .uplink 0x21 v
                (Octets.be2 number ++ [code] ++ Octets.nat1 result.code ++ [summary] ++ data)) } }) ∧
    (s.ports.uplinkOwn = .notice :: rest →
      exec .noticeTransmit s = .next
        { s with
          ports :=
            { s.ports with
              uplinkOwn := rest
              uplinkTx := some (telegramFrame .uplink 0x22 ⟨s.reportNode, s.filter.ownNode, s.filter.protocolType⟩
                ([s.summary] ++ Octets.be4 (s.events.flags.setWidth 32) ++ Octets.be4 s.lineTime)) }
          events := { s.events with noticePending := false } })

/-- R24, R50, R51, R121, R143, R155, R168, R169, R176, R180, R188: the transmission of the REPLY to a RESTART executes it: the REPLY
leaves as its frame, which the Uplink transmitter sends in full, as the Cell transmitter does the frame it has taken; working
state is discarded, the Resolver among it; settings, tables, guns, link states, line time and next tags are kept, and an
abandoned copy or load marks its bank load-incomplete. That the flash, where a store is abandoned, is left exactly as the writes
so far made it is the model's reading of R188 (log entry 34), that the idle loader's fields are cleared log entry 38, and that the
command queue and the free-value count stay log entry 2. -/
def Obligations.RestartDiscardsWorkAndKeepsSettings : Prop :=
  ∀ (s : State) (v : Envelope) (number : BitVec 16) (result : ResultCode) (summary : Octet) (data : List Octet)
    (rest : List UplinkTelegram),
    s.ports.uplinkUp = true → s.ports.uplinkOwn = .reply v number 0x54 result summary data :: rest →
    ∃ t, exec .replyTransmit s = .next t ∧ t.recordsInUse = [] ∧ t.agent.requests = [] ∧ t.agent.longOp = none ∧
      t.agent.partState = s.agent.partState ∧ t.tracker.refusalLog = [] ∧
      (∀ st : StationId, t.station st =
        { s.station st with state := .offline, queue := [], counters := ⟨0, 0, 0, 0, 0, 0⟩ }) ∧
      t.tracker.stationCount = s.tracker.stationCount ∧ t.tracker.slotCounts = s.tracker.slotCounts ∧
      t.filter = s.filter ∧ t.guns = s.guns ∧ t.holdScope = s.holdScope ∧ t.flash = s.flash ∧ t.lineTime = s.lineTime ∧
      (∀ g : SlotId, t.tagState g = ⟨(s.tagState g).next, 0, 0, false, none, none⟩) ∧
      t.banks = { s.banks with
        other := .shadow
        loadIncomplete := s.banks.loadIncomplete || s.running .copyBank || s.running .loadImage } ∧
      t.ports =
        { uplinkUp := s.ports.uplinkUp, cellUp := s.ports.cellUp, toCell := [], toUplink := [], cellOwn := [], uplinkOwn := []
          uplinkTx := some (telegramFrame .uplink 0x21 v
            (Octets.be2 number ++ [0x54] ++ Octets.nat1 result.code ++ [summary] ++ data))
          cellTx := s.ports.cellTx } ∧
      t.resolver = ⟨[], []⟩ ∧ t.pending = s.pending ∧ t.free = s.free ∧
      t.events = ⟨0, s.events.enables, false, 0, 0, 0, 0, 0, 0⟩ ∧
      (∀ c : ChannelId, t.channels[c] = { s.channels[c] with copyLost := 0 }) ∧ t.loader = Loader.start .idle

/-- R152, R171: at the end of an event, where some flag is set and enabled that was not both before, and no NOTICE waits, one
NOTICE joins the back of the Uplink own-telegram queue and the marker is set; otherwise nothing is queued. -/
def Obligations.NoticeIsQueuedOnceAtTheBack : Prop :=
  ∀ (before after : State),
    let risen := ∃ i : Fin 29, after.events.flags.getLsbD i = true ∧ after.events.enables.getLsbD i = true ∧
      ¬(before.events.flags.getLsbD i = true ∧ before.events.enables.getLsbD i = true)
    (risen → after.events.noticePending = false → settleNotice before after =
      { after with
        ports := { after.ports with uplinkOwn := after.ports.uplinkOwn ++ [.notice] }
        events := { after.events with noticePending := true } }) ∧
      (¬risen ∨ after.events.noticePending = true → settleNotice before after = after)

/-! ## The Request Queue -/

/-- R145, R147, R148, R156: a REQUEST from the controller node, or from any valid node while none is configured, makes its source
the reply node; it joins the back of the Request Queue, or, where the queue holds 4 entries, is dropped, counted, and Request
Dropped is set. -/
def Obligations.RequestJoinsTheQueueOrIsDropped : Prop :=
  ∀ (s : State) (source : Node) (number : BitVec 16) (code : Octet) (params : List Octet),
    s.ports.uplinkUp = true → source ≠ 0 → source ≠ 65535 → source ≠ s.filter.ownNode →
    s.filter.controllerNode = none ∨ s.filter.controllerNode = some source →
    exec (.request source number code params) s = .next (
      if s.agent.requests.length < 4 then
        { s with
          filter := { s.filter with replyNode := some source }
          agent := { s.agent with requests := s.agent.requests ++ [⟨source, number, code, params, false⟩] } }
      else
        settleNotice s
          { s with
            filter := { s.filter with replyNode := some source }
            events :=
              { s.events with
                requestDrops := bump s.events.requestDrops
                flags := s.events.flags ||| (1#29 <<< 18) } })

/-- R8, R37, R156, R157, R158, R192: executing the front waiting request, whatever it is, answers exactly that entry, and places
exactly one REPLY, addressed to its source with its number and code, behind all other telegrams of the event but a NOTICE. While
the power-up load runs, while an answered RESTART awaits its execution, or with no request waiting, none is executed: a request
command then changes nothing (log entry 5). Which code and parameter octets spell which request is stated code by code; octets
past the parameters are ignored, and an undefined code or a missing parameter makes the request an undefined one, answered BAD
PARAMETER (ReadRequestsChangeNothing). The codes of banks, tables, results, record checks and refusal reasons, and the index range
of each table, are stated too. -/
def Obligations.EveryRequestIsAnsweredByOneReply : Prop :=
  (∀ (s : State) (e : RequestEntry), s.executes (decodeRequest e.code e.params) e →
    ∃ (t : State) (between notice : List UplinkTelegram) (result : ResultCode) (summary : Octet) (data : List Octet),
      exec (decodeRequest e.code e.params) s = .next t ∧
      t.agent.requests = answerFront s.agent.requests ∧
      t.ports.uplinkOwn = s.ports.uplinkOwn ++ between ++
        [.reply ⟨e.source, t.filter.ownNode, t.filter.protocolType⟩ e.number e.code result summary data] ++ notice ∧
      (∀ x ∈ between, x.isReply = false ∧ x.isNotice = false) ∧ (notice = [] ∨ notice = [.notice])) ∧
  (∀ (s : State) (code : Octet) (params : List Octet),
    s.loader.activity = .powerUpLoad ∨ s.restartAwaits = true ∨ s.frontWaiting? = none →
    exec (decodeRequest code params) s = .next s) ∧
  (∀ (a b c d x y : Octet) (v w z u : BitVec 16) (l : BitVec 32) (rest : List Octet),
    decodeRequest 0x01 rest = .readStatus ∧
    decodeRequest 0x02 (a :: b :: rest) = .readBody a b ∧
    decodeRequest 0x03 (a :: b :: Octets.be2 v ++ Octets.be2 w ++ rest) = .readTable a b v w ∧
    decodeRequest 0x04 (a :: b :: rest) = .readGun a b ∧
    decodeRequest 0x05 (a :: rest) = .readCounters a ∧
    decodeRequest 0x06 rest = .readRefusals ∧
    decodeRequest 0x10 (a :: b :: Octets.be2 v ++ Octets.be2 w ++ rest) = .writeTable a b v w rest ∧
    decodeRequest 0x11 (a :: b :: c :: d :: x :: y :: rest) = .writeBlock a b c d x y rest ∧
    decodeRequest 0x12 (a :: rest) = .clearBank a ∧
    decodeRequest 0x13 rest = .copyBank ∧
    decodeRequest 0x14 rest = .swap ∧
    decodeRequest 0x20 (a :: b :: c :: Octets.be2 v ++ rest) = .setStation a b c v ∧
    (∀ pairs : List (Octet × Octet), pairs.length = b.toNat →
      decodeRequest 0x21 (a :: b :: (pairs.flatMap fun p => [p.1, p.2]) ++ rest) = .setFaultModes a pairs) ∧
    decodeRequest 0x22 (a :: rest) = .setHoldScope a ∧
    decodeRequest 0x23 (a :: b :: rest) = .clearStation a b ∧
    decodeRequest 0x24 (Octets.be4 l ++ a :: rest) = .withdrawBody l a ∧
    decodeRequest 0x30 (a :: Octets.be2 v ++ Octets.be2 w ++ Octets.be2 z ++ rest) = .setGun a v w z ∧
    decodeRequest 0x31 (a :: Octets.be2 v ++ rest) = .setWear a v ∧
    decodeRequest 0x32 (a :: rest) = .resetWear a ∧
    decodeRequest 0x40 (Octets.be4 l ++ rest) = .clearEvents l ∧
    decodeRequest 0x41 (Octets.be4 l ++ rest) = .setEventEnable l ∧
    decodeRequest 0x42 (a :: 1 :: b :: c :: Octets.be2 v ++ x :: y :: rest) = .setMirror a 1 b c v x y ∧
    (b ≠ 1 → decodeRequest 0x42 (a :: b :: rest) = .setMirror a b 0 0 0 0 0) ∧
    (∀ (counts : List Octet) (robots : List Node), counts.length = a.toNat → robots.length = (counts.map BitVec.toNat).sum →
      decodeRequest 0x50 (Octets.be2 v ++ Octets.be2 w ++ Octets.be2 z ++ Octets.be2 u ++ a :: counts ++
        robots.flatMap Octets.be2 ++ rest) = .configure v w z u a counts robots) ∧
    decodeRequest 0x51 rest = .goLive ∧
    decodeRequest 0x52 rest = .storeImage ∧
    decodeRequest 0x53 rest = .loadImage ∧
    decodeRequest 0x54 rest = .restart ∧
    (rest.length < 2 * b.toNat → decodeRequest 0x21 (a :: b :: rest) = .undefinedRequest 0x21) ∧
    (rest.length < 6 → decodeRequest 0x42 (a :: 1 :: rest) = .undefinedRequest 0x42) ∧
    (∀ counts : List Octet, counts.length = a.toNat → rest.length < 2 * (counts.map BitVec.toNat).sum →
      decodeRequest 0x50 (Octets.be2 v ++ Octets.be2 w ++ Octets.be2 z ++ Octets.be2 u ++ a :: counts ++ rest) =
        .undefinedRequest 0x50) ∧
    (rest.length < a.toNat →
      decodeRequest 0x50 (Octets.be2 v ++ Octets.be2 w ++ Octets.be2 z ++ Octets.be2 u ++ a :: rest) =
        .undefinedRequest 0x50)) ∧
  (∀ x ∈ ([(0x02, 2), (0x03, 6), (0x04, 2), (0x05, 1), (0x10, 6), (0x11, 6), (0x12, 1), (0x20, 5), (0x21, 2), (0x22, 1),
      (0x23, 2), (0x24, 5), (0x30, 7), (0x31, 3), (0x32, 1), (0x40, 4), (0x41, 4), (0x42, 2), (0x50, 9)] :
      List (Octet × Nat)), ∀ params : List Octet, params.length < x.2 →
    decodeRequest x.1 params = .undefinedRequest x.1) ∧
  (∀ (code : Octet) (params : List Octet),
    code ∉ ([0x01, 0x02, 0x03, 0x04, 0x05, 0x06, 0x10, 0x11, 0x12, 0x13, 0x14, 0x20, 0x21, 0x22, 0x23, 0x24, 0x30, 0x31, 0x32,
      0x40, 0x41, 0x42, 0x50, 0x51, 0x52, 0x53, 0x54] : List Octet) →
    decodeRequest code params = .undefinedRequest code) ∧
  (∀ o : Octet, bankOf? o = [BankId.a, .b][o.toNat]? ∧
    tableOf? o = [TableId.styles, .matrix, .overlays, .plans, .schedules, .curves][o.toNat]?) ∧
  [TableId.styles, .matrix, .overlays, .plans, .schedules, .curves].map (fun k => (k.number.val, k.firstIndex, k.capacity)) =
    [(0, 0, 64), (1, 0, 2048), (2, 0, 128), (3, 1, 512), (4, 1, 64), (5, 1, 16)] ∧
  (∀ (k : TableId) (i : Nat), k.inRange i = true ↔ k.firstIndex ≤ i ∧ i < k.firstIndex + k.capacity) ∧
  [ResultCode.done, .doneClamped, .accepted, .busy, .bankBusy, .incomplete, .badParameter, .badRecord, .wrongState,
    .notPermitted, .notFound].map (·.code) = List.range 11 ∧
  [RecordCheck.range, .order, .duplicateCode].map (·.code) = List.range 3 ∧
  [RefusalReason.queueFull, .duplicate, .stationOffline, .noSuchStation, .noTables, .notFound, .source].map (·.code) =
    List.range 7

/-- R2, R3, R40, R45, R80, R157, R165, R166, R167, R192: a request that only reads, one whose code or form is undefined, and a
RESTART before its REPLY has left change nothing but the Request Queue and their REPLY. Its data, field by field: READ STATUS the
part state, line time, long-operation slot, Bank A and Bank B, the Validation Report, hold scope, Section Hold, the four stations,
the configuration and the link states; READ BODY the fields of R2, the slot entries counted, each with those of R3; READ GUN the
slot, whether it is configured, and the fields of R73. READ TABLE answers, of tables whose entries are in range, a count and so
many entries in index order, in octets that read back as WRITE TABLE records to those entries; as many as were asked for, up to
255, unless the next one would bring the octets behind the count above 1,486. Order, widths and the size of a REPLY are the
model's reading of R192 and R189 (log entries 15, 16). -/
def Obligations.ReadRequestsChangeNothing : Prop :=
  (∀ (s : State) (e : RequestEntry) (a b c : Octet) (first count : BitVec 16),
    (s.executes .readStatus e → exec .readStatus s = .next (s.replied e .done s.statusOctets)) ∧
      (s.executes .readRefusals e → exec .readRefusals s = .next (s.replied e .done
        (Octets.nat1 s.tracker.refusalLog.length ++ s.tracker.refusalLog.flatMap fun x =>
          Octets.be4 x.bodyId ++ [x.station] ++ Octets.nat1 x.reason.code ++ Octets.be4 x.time))) ∧
      (s.executes (.readBody a b) e → exec (.readBody a b) s = .next (
        if h : a.toNat < 4 ∧ a.toNat < s.tracker.stationCount ∧ b.toNat ≤ 3 then
          match (s.station ⟨a.toNat, h.1⟩).queue[b.toNat]? with
          | some r => s.replied e .done r.fieldOctets
          | none => s.replied e .notFound []
        else s.replied e .badParameter [])) ∧
      (s.executes (.readTable a b first count) e → exec (.readTable a b first count) s = .next (
        match bankOf? a, tableOf? b with
        | some i, some k =>
          if count.toNat ≠ 0 ∧ k.firstIndex ≤ first.toNat ∧ first.toNat + count.toNat ≤ k.firstIndex + k.capacity then
            s.replied e .done ((s.banks.tables i).runOctets k first.toNat count.toNat)
          else s.replied e .badParameter []
        | _, _ => s.replied e .badParameter [])) ∧
      (s.executes (.readGun a b) e → exec (.readGun a b) s = .next (
        if b ≠ 0 ∧ a.toNat + b.toNat ≤ 32 then
          s.replied e .done (Octets.counted s.gunOctets ((allSlots.drop a.toNat).take b.toNat))
        else s.replied e .badParameter [])) ∧
      (s.executes (.undefinedRequest c) e → exec (.undefinedRequest c) s = .next (s.replied e .badParameter [])) ∧
      (s.executes .restart e → exec .restart s = .next (s.replied e .done []))) ∧
  (∀ (t : Tables) (k : TableId) (first count : Nat), t.inRange →
    ∃ (n : Nat) (octets : List Octet), t.runOctets k first count = Octets.nat1 n ++ octets ∧ n ≤ min count 255 ∧
      octets.length ≤ 1486 ∧
      readRecords k octets.length octets = some ((List.range n).map fun j => .ok (t.record? k (first + j))) ∧
      (n < min count 255 → ∀ more, readRecord k more = some (.ok (t.record? k (first + n)), []) →
        1486 < octets.length + more.length)) ∧
  (∀ (s : State) (g : SlotId),
    let x := s.gun g
    s.gunOctets g = Octets.nat1 g.val ++ [if s.slotConfigured g = true then 1 else 0] ++ Octets.nat2 x.wear ++
      [if x.wearUnknown = true then 1 else 0, if x.dressDue = true then 1 else 0] ++ Octets.nat2 x.dressCount ++
      Octets.nat2 x.capChanges ++ Octets.nat2 x.dressLimit ++ Octets.nat2 x.hardLimit ++ Octets.nat2 x.ceiling) ∧
  (∀ r : BodyRecord, r.fieldOctets =
    Octets.be4 r.bodyId ++ Octets.nat1 r.station.val ++ Octets.be2 r.style ++ Octets.opt1 r.row ++ Octets.be2 r.options ++
      Octets.nat1 r.variant ++
      [match r.origin with | .normal => 0 | .rework => 1, match r.bankTag with | .a => 0 | .b => 1,
        match r.state with | .queued => 0 | .active => 1 | .releasing => 2] ++
      Octets.be4 r.announcedAt ++ Octets.optTime r.startedAt ++ Octets.optTime r.releasedAt ++
      Octets.nat1 r.entries.length ++ r.entries.flatMap SlotEntry.fieldOctets ++
      [if r.bodyHeld = true then 1 else 0,
        match r.outcome with | some .clean => 0 | some .faulted => 1 | some .aborted => 2 | none => 255]) ∧
  (∀ e : SlotEntry, e.fieldOctets =
    Octets.nat1 e.position.val ++ Octets.nat2 e.effectivePlan ++
      Octets.nat1 e.overlays.length ++ e.overlays.flatMap Octets.nat1 ++ Octets.nat1 (e.program.getD 0) ++
      Octets.nat1 e.groups.length ++ (e.groups.flatMap fun y =>
        Octets.nat1 y.schedule ++ Octets.nat1 y.spots ++ Octets.nat2 y.weldTime ++ Octets.nat2 y.current) ++
      Octets.nat2 (e.plannedSpots.getD 0) ++
      [match e.expansionError with | none => 0 | some .depth => 1 | some .length => 2 | some .missing => 3,
        if e.clamp = true then 1 else 0, if e.dressRequested = true then 1 else 0, if e.wearUnconfirmed = true then 1 else 0,
        match e.state with
          | .waiting => 0 | .selected => 1 | .loaded => 2 | .finished => 3 | .faulted => 4 | .cancelled => 5,
        e.faults, if e.held = true then 1 else 0, if e.warned = true then 1 else 0] ++
      Octets.opt2 e.refusalReason ++ Octets.opt2 e.spotsWelded ++ Octets.be2 (e.tag.getD 0) ++
      Octets.optTime e.selectedAt ++ Octets.optTime e.readyAt) ∧
  (∀ s : State,
    let bank : BankId → List Octet := fun i =>
      [if s.banks.active = i then 0
        else match s.banks.other with | .shadow => 1 | .validating => 2 | .draining => 3,
        if s.banks.active = i then (if s.banks.validated = true then 1 else 0) else 255,
        if s.banks.active ≠ i ∧ s.banks.other = .shadow then (if s.banks.loadIncomplete = true then 1 else 0) else 255] ++
      Octets.nat2 (s.tagCount i)
    let x := s.banks.report
    let report : List Octet :=
      [match x.outcome with | .none => 0 | .passed => 1 | .failed => 2,
        match x.bank with | some .a => 0 | some .b => 1 | none => 255,
        match x.table with
          | some .styles => 0 | some .matrix => 1 | some .overlays => 2 | some .plans => 3 | some .schedules => 4
          | some .curves => 5 | none => 255] ++
      Octets.opt2 x.index ++ Octets.opt1 x.detail ++
      [match x.reason with
        | some .rowRange => 0 | some .planRange => 1 | some .planMissing => 2 | some .scheduleMissing => 3
        | some .curveMissing => 4 | none => 255] ++
      Octets.opt2 x.referenced ++ Octets.optTime x.endedAt
    let station : StationId → List Octet := fun st =>
      let y := s.station st
      ([match y.state with | .offline => 0 | .idle => 1 | .dispatching => 2 | .held => 3 | .manual => 4,
        if y.dry = true then 1 else 0] : List Octet) ++
      Octets.nat2 y.readyLimit ++ Octets.nat1 y.queue.length ++
        [.readyTimeout, .readyRefused, .cycleTimeout, .shortCycle, .spotShortfall, .qualityReject, .wearOverrun,
          .expansionError, .unknownStyle].flatMap fun k =>
            Octets.nat1 (match s.mode st k with | .hold => 0 | .pass => 1 | .warn => 2 | .off => 3)
    let stations := (List.finRange 4).filter fun st => st.val < s.tracker.stationCount
    let slots := (List.finRange 32).filter s.slotConfigured
    s.statusOctets =
      ([match s.agent.partState with | .commissioning => 0 | .live => 1] : List Octet) ++ Octets.be4 s.lineTime ++
      (match s.agent.longOp with
        | none => [255, 0]
        | some y =>
          ([match y.kind with | .copyBank => 0 | .swap => 1 | .storeImage => 2 | .loadImage => 3, 1] : List Octet) ++
            Octets.be4 y.acceptedAt) ++
      bank .a ++ bank .b ++ report ++
      ([match s.holdScope with | .station => 0 | .wholeSection => 1, if s.sectionHold = true then 1 else 0] : List Octet) ++
      (List.finRange 4).flatMap station ++
      Octets.be2 s.filter.protocolType ++ Octets.be2 s.filter.ownNode ++ Octets.optNode s.filter.controllerNode ++
      Octets.optNode s.filter.trackerNode ++ Octets.nat1 s.tracker.stationCount ++
      Octets.nat1 stations.length ++ (stations.flatMap fun st => Octets.nat1 s.tracker.slotCounts[st]) ++
      Octets.nat1 slots.length ++ (slots.flatMap fun g => Octets.optNode (s.robotNode? g)) ++
      [if s.ports.uplinkUp = true then 0 else 1, if s.ports.cellUp = true then 0 else 1])

/-- R160, R167, R175, R192: READ COUNTERS answers the counters as they stood; with the clear option, and only with it, the station
counters, the part counters and the Copy Lost counters become 0, and everything else stays; the Summary Octet is that of before. A
counter rises by 1 and stays at 65535. The data hold the six counters of each station, the six of the part, and each channel's
armed flag, remaining count and Copy Lost counter. The eight bits of the Summary Octet of a REPLY are the eight conditions in
their order. That the six counters of one station stand together, in the order of R175, is the model's reading (log entry 15). -/
def Obligations.ReadCountersClearsOnRequest : Prop :=
  (∀ s : State, s.counterOctets =
    ((List.finRange 4).flatMap fun st =>
      let x := (s.station st).counters
      Octets.nat2 x.releasedClean ++ Octets.nat2 x.releasedFaulted ++ Octets.nat2 x.aborted ++ Octets.nat2 x.stale ++
        Octets.nat2 x.late ++ Octets.nat2 x.duplicate) ++
    Octets.nat2 s.events.guardDrops ++ Octets.nat2 s.events.frameErrors ++ Octets.nat2 s.events.forwardDropsToCell ++
    Octets.nat2 s.events.forwardDropsToUplink ++ Octets.nat2 s.events.requestDrops ++ Octets.nat2 s.events.refusals ++
    (List.finRange 8).flatMap fun c =>
      [if s.channels[c].armed = true then 1 else 0] ++ Octets.nat1 s.channels[c].remaining ++
        Octets.nat2 s.channels[c].copyLost) ∧
  (∀ s : State,
    (s.summary.getLsbD 0 = true ↔ ∃ st, (s.station st).state = .held) ∧
    (s.summary.getLsbD 1 = true ↔ ∃ st : StationId, s.events.flags.getLsbD (4 + st.val) = true) ∧
    (s.summary.getLsbD 2 = true ↔ s.holdScope = .wholeSection ∧ ∃ st, (s.station st).state = .held) ∧
    (s.summary.getLsbD 3 = true ↔ s.agent.partState = .live) ∧
    (s.summary.getLsbD 4 = true ↔ s.agent.longOp ≠ none ∨ s.banks.other = .draining) ∧
    (s.summary.getLsbD 5 = true ↔ s.events.flags.getLsbD 13 = true) ∧
    (s.summary.getLsbD 6 = true ↔ ∃ g : SlotId, s.slotConfigured g = true ∧ (s.gun g).wearUnknown = true) ∧
    (s.summary.getLsbD 7 = true ↔
      ∃ i : Fin 29, s.events.flags.getLsbD i = true ∧ s.events.enables.getLsbD i = true)) ∧
  (∀ n : Nat, n ≤ 65535 → bump n = min (n + 1) 65535) ∧
  ∀ (s : State) (e : RequestEntry) (clear : Octet), s.executes (.readCounters clear) e →
    ∃ t, exec (.readCounters clear) s = .next t ∧
      (1 < clear.toNat → t = s.replied e .badParameter []) ∧
      (clear = 0 → t = s.replied e .done s.counterOctets) ∧
      (clear = 1 →
        t = State.replied
          { s with
            tracker := { s.tracker with
              stations := s.tracker.stations.map fun x => { x with counters := ⟨0, 0, 0, 0, 0, 0⟩ } }
            events := { s.events with
              guardDrops := 0, frameErrors := 0, forwardDropsToCell := 0, forwardDropsToUplink := 0, requestDrops := 0,
              refusals := 0 }
            channels := s.channels.map fun c => { c with copyLost := 0 } }
          e .done s.counterOctets ∧
        t.ports.uplinkOwn = s.ports.uplinkOwn ++
          [.reply ⟨e.source, s.filter.ownNode, s.filter.protocolType⟩ e.number e.code .done s.summary s.counterOctets])

/-! ## Table banks -/

/-- R36, R37, R42: a WRITE TABLE of well-formed records that pass their checks, into the SHADOW bank with nothing running into it,
puts each record in its entry, an empty record emptying it, and leaves every other entry of every table as it was. -/
def Obligations.WriteTableWritesItsRun : Prop :=
  ∀ (s : State) (e : RequestEntry) (bank table : Octet) (first count : BitVec 16) (octets : List Octet) (i : BankId)
    (k : TableId) (records : List (Except RecordCheck (Option Record))),
    s.executes (.writeTable bank table first count octets) e → s.tablesCanonical → bankOf? bank = some i →
    tableOf? table = some k → readRecords k octets.length octets = some records → records.length = count.toNat →
    count.toNat ≠ 0 → k.firstIndex ≤ first.toNat → first.toNat + count.toNat ≤ k.firstIndex + k.capacity →
    s.banks.active ≠ i → s.banks.other = .shadow → s.running .copyBank = false → s.running .loadImage = false →
    firstFailure (s.banks.tables i) first.toNat records = none →
    ∃ t : State, exec (.writeTable bank table first count octets) s = .next (t.replied e .done []) ∧
      t = { s with banks := t.banks } ∧ t.banks = s.banks.setTables i (t.banks.tables i) ∧
      (∀ j r, records[j]? = some (.ok r) →
        (t.banks.tables i).record? k (first.toNat + j) = r.filter (fun x => x ≠ .cell ⟨0, 1⟩)) ∧
      (∀ k' n, k' ≠ k ∨ n < first.toNat ∨ first.toNat + count.toNat ≤ n →
        (t.banks.tables i).record? k' n = (s.banks.tables i).record? k' n)

/-- R36, R37, R192: the checks of WRITE TABLE in their order: an undefined bank or table, a count of 0 or a run outside the table,
octets that do not make whole records, or another number of them; a bank that is not SHADOW; a copy or load running into it; a
failing record, whose position and check the reply gives. A refused WRITE TABLE writes nothing. Which octets make a record of each
table, and which check of R37 it fails, is stated octet by octet; a record fails Duplicate Code as `recordFails` says, and the
reply names the first failing one. That Range comes before Order, and that the second of two equal codes fails, is the model's
reading of R37 (log entry 33). That a presence octet other than 0 or 1 is found with check 1 of R36, ahead of BANK BUSY and BUSY,
is the model's choice (log entry 29). -/
def Obligations.WriteTableIsCheckedInOrder : Prop :=
  (∀ (s : State) (e : RequestEntry) (bank table : Octet) (first count : BitVec 16) (octets : List Octet),
    s.executes (.writeTable bank table first count octets) e →
    (bankOf? bank = none ∨ tableOf? table = none ∨ count = 0 →
      exec (.writeTable bank table first count octets) s = .next (s.replied e .badParameter [])) ∧
    (∀ i k, bankOf? bank = some i → tableOf? table = some k →
      (k.inRange first.toNat = false ∨ k.inRange (first.toNat + count.toNat - 1) = false ∨
          readRecords k octets.length octets = none →
        exec (.writeTable bank table first count octets) s = .next (s.replied e .badParameter [])) ∧
      (∀ records, readRecords k octets.length octets = some records →
        (records.length ≠ count.toNat →
          exec (.writeTable bank table first count octets) s = .next (s.replied e .badParameter [])) ∧
        (records.length = count.toNat → count ≠ 0 → k.inRange first.toNat = true →
          k.inRange (first.toNat + count.toNat - 1) = true →
          (s.banks.active = i ∨ s.banks.other ≠ .shadow →
            exec (.writeTable bank table first count octets) s = .next (s.replied e .bankBusy [])) ∧
          (s.banks.active ≠ i → s.banks.other = .shadow → s.running .copyBank = true ∨ s.running .loadImage = true →
            exec (.writeTable bank table first count octets) s = .next (s.replied e .busy [])) ∧
          (s.banks.active ≠ i → s.banks.other = .shadow → s.running .copyBank = false →
            s.running .loadImage = false → ∀ position check,
              firstFailure (s.banks.tables i) first.toNat records = some (position, check) →
              exec (.writeTable bank table first count octets) s = .next (s.replied e .badRecord
                (Octets.nat2 position ++ Octets.nat1 check.code))))))) ∧
  (∀ (t : Tables) (first : Nat) (records : List (Except RecordCheck (Option Record))),
    (firstFailure t first records = none ↔ ∀ j check, ¬recordFails t first records j check) ∧
    (∀ position check, firstFailure t first records = some (position, check) →
      recordFails t first records position check ∧ ∀ j < position, ∀ c, ¬recordFails t first records j c)) ∧
  (∀ (k : TableId) (a b c d x y z : Octet) (rest : List Octet),
    readRecord k [] = none ∧ readRecord k (0 :: rest) = some (.ok none, rest) ∧
    (1 < a.toNat → readRecord k (a :: rest) = none) ∧
    readRecord .styles (1 :: a :: b :: c :: rest) = some (
      if a ++ b = 0#16 ∨ a ++ b = 65535#16 ∨ 63 < c.toNat then .error .range
      else .ok (some (.style ⟨a ++ b, c.toNat⟩)), rest) ∧
    readRecord .matrix (1 :: a :: b :: c :: rest) = some (
      if 512 < (a ++ b).toNat ∨ c = 0 ∨ 4 < c.toNat then .error .range
      else .ok (some (.cell ⟨(a ++ b).toNat, c.toNat⟩)), rest) ∧
    readRecord .overlays (1 :: a :: b :: c :: d :: x :: y :: rest) = some (
      if 15 < a.toNat ∨ (63 < b.toNat ∧ b ≠ 255) ∨ 31 < c.toNat ∨ 1 < d.toNat ∨ x ++ y = 0#16 ∨ 512 < (x ++ y).toNat then
        .error .range
      else .ok (some (.overlay ⟨a.toNat, if b = 255 then none else some b.toNat, c.toNat,
        if d = 0 then .substitute else .append, (x ++ y).toNat⟩)), rest) ∧
    (∀ steps : List (Octet × Octet × Octet), steps.length = z.toNat →
      readRecord .plans (1 :: a :: b :: c :: d :: x :: z :: (steps.flatMap fun s => [s.1, s.2.1, s.2.2]) ++ rest) = some (
        if a = 0 ∨ z = 0 ∨ 12 < z.toNat ∨ (∃ s ∈ steps, 1 < s.1.toNat ∨
            (s.1 = 0 ∧ (s.2.1 = 0 ∨ 64 < s.2.1.toNat ∨ s.2.2 = 0)) ∨
            (s.1 = 1 ∧ (s.2.1 ++ s.2.2 = 0#16 ∨ 512 < (s.2.1 ++ s.2.2).toNat))) then .error .range
        else .ok (some (.plan ⟨a.toNat, (b ++ c).toNat, (d ++ x).toNat, steps.map fun s =>
          if s.1 = 0 then .group s.2.1.toNat s.2.2.toNat else .call (s.2.1 ++ s.2.2).toNat⟩)), rest)) ∧
    readRecord .schedules (1 :: a :: b :: c :: d :: x :: rest) = some (
      if (a ++ b).toNat < 20 ∨ 1800 < (a ++ b).toNat ∨ c ++ d = 0#16 ∨ 999 < (c ++ d).toNat ∨ 16 < x.toNat then
        .error .range
      else .ok (some (.schedule ⟨(a ++ b).toNat, (c ++ d).toNat, x.toNat⟩)), rest) ∧
    (∀ points : List (BitVec 16 × BitVec 16), points.length = z.toNat →
      readRecord .curves (1 :: z :: (points.flatMap fun p => Octets.be2 p.1 ++ Octets.be2 p.2) ++ rest) = some (
        if z.toNat < 2 ∨ 8 < z.toNat ∨ (∃ p ∈ points, 60000 < p.1.toNat ∨ 500 < p.2.toNat) then .error .range
        else if points.Pairwise fun p q => p.1.toNat < q.1.toNat ∧ p.2.toNat ≤ q.2.toNat then
          .ok (some (.curve (points.map fun p => ⟨p.1.toNat, p.2.toNat⟩)))
        else .error .order, rest)) ∧
    (rest.length < (match k with | .styles | .matrix => 3 | .overlays | .plans => 6 | .schedules => 5 | .curves => 1) →
      readRecord k (1 :: rest) = none) ∧
    (rest.length < 3 * z.toNat → readRecord .plans (1 :: a :: b :: c :: d :: x :: z :: rest) = none) ∧
    (rest.length < 4 * z.toNat → readRecord .curves (1 :: z :: rest) = none))

/-- R37, R38: a WRITE BLOCK over a rectangle of the matrix of the SHADOW bank. A single valid cell goes into every cell of the
rectangle; a list of as many valid cells as the rectangle has goes into it in row-major order; every other cell, and every other
table, stays as it was. It is checked in order: an undefined bank, a rectangle outside the matrix, or cells that do not make the
value or the list; a bank that is not SHADOW; a copy or load running into it; a failing cell, whose position the reply gives. A
refused one writes nothing. That an undefined form octet is found with check 1 of R38, ahead of BANK BUSY and BUSY, is the model's
choice (log entry 29). -/
def Obligations.WriteBlockFillsItsRectangle : Prop :=
  (∀ (s : State) (e : RequestEntry) (bank r1 r2 c1 c2 hi lo span : Octet) (rest : List Octet) (i : BankId),
    s.executes (.writeBlock bank r1 r2 c1 c2 0 (hi :: lo :: span :: rest)) e → s.tablesCanonical →
    bankOf? bank = some i → r1.toNat ≤ r2.toNat → r2.toNat ≤ 63 → c1.toNat ≤ c2.toNat → c2.toNat ≤ 31 →
    (hi ++ lo).toNat ≤ 512 → 1 ≤ span.toNat → span.toNat ≤ 4 →
    s.banks.active ≠ i → s.banks.other = .shadow → s.running .copyBank = false → s.running .loadImage = false →
    ∃ t : State, exec (.writeBlock bank r1 r2 c1 c2 0 (hi :: lo :: span :: rest)) s = .next (t.replied e .done []) ∧
      t = { s with banks := t.banks } ∧ t.banks = s.banks.setTables i (t.banks.tables i) ∧
      (∀ row column, column < 32 → (t.banks.tables i).cell (32 * row + column) =
        if r1.toNat ≤ row ∧ row ≤ r2.toNat ∧ c1.toNat ≤ column ∧ column ≤ c2.toNat then
          ⟨(hi ++ lo).toNat, span.toNat⟩
        else (s.banks.tables i).cell (32 * row + column)) ∧
      (∀ k n, k ≠ .matrix → (t.banks.tables i).record? k n = (s.banks.tables i).record? k n)) ∧
  (∀ (s : State) (e : RequestEntry) (bank r1 r2 c1 c2 : Octet) (cells : List (Octet × Octet × Octet)) (i : BankId),
    let octets := cells.flatMap fun x => [x.1, x.2.1, x.2.2]
    let width := c2.toNat - c1.toNat + 1
    s.executes (.writeBlock bank r1 r2 c1 c2 1 octets) e → s.tablesCanonical →
    bankOf? bank = some i → r1.toNat ≤ r2.toNat → r2.toNat ≤ 63 → c1.toNat ≤ c2.toNat → c2.toNat ≤ 31 →
    cells.length = (r2.toNat - r1.toNat + 1) * width →
    (∀ x ∈ cells, (x.1 ++ x.2.1).toNat ≤ 512 ∧ 1 ≤ x.2.2.toNat ∧ x.2.2.toNat ≤ 4) →
    s.banks.active ≠ i → s.banks.other = .shadow → s.running .copyBank = false → s.running .loadImage = false →
    ∃ t : State, exec (.writeBlock bank r1 r2 c1 c2 1 octets) s = .next (t.replied e .done []) ∧
      t = { s with banks := t.banks } ∧ t.banks = s.banks.setTables i (t.banks.tables i) ∧
      (∀ k x, cells[k]? = some x →
        (t.banks.tables i).cell (32 * (r1.toNat + k / width) + (c1.toNat + k % width)) =
          ⟨(x.1 ++ x.2.1).toNat, x.2.2.toNat⟩) ∧
      (∀ row column, column < 32 → ¬(r1.toNat ≤ row ∧ row ≤ r2.toNat ∧ c1.toNat ≤ column ∧ column ≤ c2.toNat) →
        (t.banks.tables i).cell (32 * row + column) = (s.banks.tables i).cell (32 * row + column)) ∧
      (∀ k n, k ≠ .matrix → (t.banks.tables i).record? k n = (s.banks.tables i).record? k n)) ∧
  (∀ (s : State) (e : RequestEntry) (bank r1 r2 c1 c2 form : Octet) (octets : List Octet),
    s.executes (.writeBlock bank r1 r2 c1 c2 form octets) e →
    let size := (r2.toNat - r1.toNat + 1) * (c2.toNat - c1.toNat + 1)
    let unsound := r2.toNat < r1.toNat ∨ 63 < r2.toNat ∨ c2.toNat < c1.toNat ∨ 31 < c2.toNat ∨ 1 < form.toNat ∨
      (form = 0 ∧ octets.length < 3) ∨ (form = 1 ∧ octets.length ≠ 3 * size)
    (bankOf? bank = none ∨ unsound →
      exec (.writeBlock bank r1 r2 c1 c2 form octets) s = .next (s.replied e .badParameter [])) ∧
    (∀ i, bankOf? bank = some i → ¬unsound →
      (s.banks.active = i ∨ s.banks.other ≠ .shadow →
        exec (.writeBlock bank r1 r2 c1 c2 form octets) s = .next (s.replied e .bankBusy [])) ∧
      (s.banks.active ≠ i → s.banks.other = .shadow → s.running .copyBank = true ∨ s.running .loadImage = true →
        exec (.writeBlock bank r1 r2 c1 c2 form octets) s = .next (s.replied e .busy [])) ∧
      (∀ position a b span, s.banks.active ≠ i → s.banks.other = .shadow → s.running .copyBank = false →
        s.running .loadImage = false → (form = 0 → position = 0) →
        (octets.drop (3 * position)).take 3 = [a, b, span] → 512 < (a ++ b).toNat ∨ span = 0 ∨ 4 < span.toNat →
        (∀ j < position, ∃ a b span, (octets.drop (3 * j)).take 3 = [a, b, span] ∧
          (a ++ b).toNat ≤ 512 ∧ 1 ≤ span.toNat ∧ span.toNat ≤ 4) →
        exec (.writeBlock bank r1 r2 c1 c2 form octets) s = .next (s.replied e .badRecord
          (Octets.nat2 position ++ [0])))))

/-- R39: CLEAR BANK, with its checks in their order: an undefined bank, a bank that is not SHADOW, a copy or load running into
it; otherwise every entry of the bank becomes empty and its load-incomplete mark clear. -/
def Obligations.ClearBankEmptiesTheShadowBank : Prop :=
  ∀ (s : State) (e : RequestEntry) (bank : Octet), s.executes (.clearBank bank) e →
    (bankOf? bank = none → exec (.clearBank bank) s = .next (s.replied e .badParameter [])) ∧
    (∀ i, bankOf? bank = some i → exec (.clearBank bank) s = .next (
      if s.banks.active = i ∨ s.banks.other ≠ .shadow then s.replied e .bankBusy []
      else if s.running .copyBank = true ∨ s.running .loadImage = true then s.replied e .busy []
      else
        State.replied
          { s with banks := { s.banks.setTables i ⟨[], [], [], [], [], []⟩ with loadIncomplete := false } } e .done []))

/-- R41, R43, R164, R181, R186, R187: the checks and the acceptance of the four long operations: BUSY while the slot is held, BANK BUSY
(but for STORE IMAGE) while the other bank is not SHADOW, INCOMPLETE for SWAP of a bank so marked; an accepted one takes the
slot at the present line time. SWAP makes the other bank VALIDATING, LOAD IMAGE empties it. STORE IMAGE copies what it will write,
octet by octet as R181 lays it out: the 23 octets of the header before the checksum, the configuration part value by value, a
record for each non-empty entry of the ACTIVE bank, and the adjustment octet, by which the checksum is never 65,535. That STORE
IMAGE erases the image area in the same event, and the order of its table records, are the model's choices (log entries 21, 37);
what it writes for a controller node that is not configured, and the adjustment octet where both values are allowed, are open (log
entry 21). -/
def Obligations.LongOperationsTakeTheSlot : Prop :=
  ∀ (s : State) (e : RequestEntry),
    let taken := fun (k : LongOpKind) => { s with agent := { s.agent with longOp := some ⟨k, s.lineTime, 0⟩ } }
    (s.executes .copyBank e → exec .copyBank s = .next (
      if s.agent.longOp.isSome then s.replied e .busy []
      else if s.banks.other ≠ .shadow then s.replied e .bankBusy []
      else (taken .copyBank).replied e .accepted [])) ∧
    (s.executes .swap e → exec .swap s = .next (
      if s.agent.longOp.isSome then s.replied e .busy []
      else if s.banks.other ≠ .shadow then s.replied e .bankBusy []
      else if s.banks.loadIncomplete then s.replied e .incomplete []
      else State.replied { taken .swap with banks := { s.banks with other := .validating } } e .accepted [])) ∧
    (s.executes .loadImage e → exec .loadImage s = .next (
      if s.agent.longOp.isSome then s.replied e .busy []
      else if s.banks.other ≠ .shadow then s.replied e .bankBusy []
      else
        State.replied
          { taken .loadImage with
            banks := s.banks.setTables s.banks.active.other ⟨[], [], [], [], [], []⟩
            loader := Loader.start .load } e .accepted [])) ∧
    (s.executes .storeImage e →
      let b := s.banks.tables s.banks.active
      let stations := (List.finRange 4).filter fun st => st.val < s.tracker.stationCount
      let slots := (List.finRange 32).filter s.slotConfigured
      let config : Node → List Octet := fun unconfigured =>
        Octets.be2 s.filter.protocolType ++ Octets.be2 s.filter.ownNode ++
          Octets.be2 (s.filter.controllerNode.getD unconfigured) ++ Octets.be2 (s.filter.trackerNode.getD 0) ++
          Octets.nat1 s.tracker.stationCount ++ (stations.flatMap fun st => Octets.nat1 s.tracker.slotCounts[st]) ++
          (slots.flatMap fun g => Octets.be2 ((s.robotNode? g).getD 0)) ++
          (stations.flatMap fun st => Octets.nat2 (s.station st).readyLimit ++
            [.readyTimeout, .readyRefused, .cycleTimeout, .shortCycle, .spotShortfall, .qualityReject, .wearOverrun,
              .expansionError, .unknownStyle].flatMap fun k =>
                Octets.nat1 (match s.mode st k with | .hold => 0 | .pass => 1 | .warn => 2 | .off => 3)) ++
          ([match s.holdScope with | .station => 0 | .wholeSection => 1] : List Octet) ++
          (slots.flatMap fun g =>
            Octets.nat2 (s.gun g).dressLimit ++ Octets.nat2 (s.gun g).hardLimit ++ Octets.nat2 (s.gun g).ceiling)
      let records : List Octet :=
        (b.styles.flatMap fun x => [0] ++ Octets.nat2 x.1 ++ Octets.be2 x.2.code ++ Octets.nat1 x.2.row) ++
          (b.matrix.flatMap fun x => [1] ++ Octets.nat2 x.1 ++ Octets.nat2 x.2.basePlan ++ Octets.nat1 x.2.span) ++
          (b.overlays.flatMap fun x => [2] ++ Octets.nat2 x.1 ++ Octets.nat1 x.2.optionBit ++
            (match x.2.row with | none => [255] | some row => Octets.nat1 row) ++ Octets.nat1 x.2.slot ++
            ([match x.2.action with | .substitute => 0 | .append => 1] : List Octet) ++ Octets.nat2 x.2.plan) ++
          (b.plans.flatMap fun x => [3] ++ Octets.nat2 x.1 ++ Octets.nat1 x.2.program ++ Octets.nat2 x.2.cycleMin ++
            Octets.nat2 x.2.cycleMax ++ Octets.nat1 x.2.steps.length ++ x.2.steps.flatMap fun y => match y with
              | .group schedule spots => [0] ++ Octets.nat1 schedule ++ Octets.nat1 spots
              | .call plan => [1] ++ Octets.nat2 plan) ++
          (b.schedules.flatMap fun x => [4] ++ Octets.nat2 x.1 ++ Octets.nat2 x.2.base ++ Octets.nat2 x.2.weldTime ++
            Octets.nat1 x.2.curve) ++
          (b.curves.flatMap fun x => [5] ++ Octets.nat2 x.1 ++ Octets.nat1 x.2.length ++
            x.2.flatMap fun p => Octets.nat2 p.wear ++ Octets.nat2 p.raise)
      ∃ (unconfigured : Node) (adjust : Octet), (adjust = 0 ∨ adjust = 1) ∧
        let payload := config unconfigured ++ records ++ [adjust]
        let sum := BitVec.ofNat 16 (payload.map BitVec.toNat).sum
        sum ≠ 65535 ∧ exec .storeImage s = .next (
          if s.agent.longOp.isSome then s.replied e .busy []
          else
            State.replied
              { taken .storeImage with
                loader :=
                  { Loader.start .store with
                    header := some
                      { recordCounts := #v[b.styles.length, b.matrix.length, b.overlays.length, b.plans.length,
                          b.schedules.length, b.curves.length]
                        configLength := (config unconfigured).length, payloadLength := payload.length, checksum := sum }
                    stored := [0x5C, 0x41, 0x60, 0xA7, 1] ++ Octets.nat2 b.styles.length ++ Octets.nat2 b.matrix.length ++
                      Octets.nat2 b.overlays.length ++ Octets.nat2 b.plans.length ++ Octets.nat2 b.schedules.length ++
                      Octets.nat2 b.curves.length ++ Octets.nat2 (config unconfigured).length ++
                      Octets.nat4 payload.length ++ payload }
                flash := [] } e .accepted []))

/-- R12, R42, R45, R46, R47: when a COPY BANK completes, the target holds the same tables as the source, its load-incomplete mark
is cleared and Bank Copied is set; that the command changes nothing while no copy runs is log entry 2. A validation that finds
a failure reports it, returns the bank to SHADOW and sets Swap Refused; one that passes switches the banks, the outgoing one
DRAINING while records carry its tag and SHADOW otherwise, and sets Swap Switched; where the outgoing bank was not validated,
every station then tests its head start condition, in an order that is open (log entry 7). Each frees the slot. -/
def Obligations.BankOperationsComplete : Prop :=
  ∀ s : State,
    let ended := fun (b : Banks) (flag : Nat) => { s with
      banks := b
      events := { s.events with flags := s.events.flags ||| (1#29 <<< flag) }
      agent := { s.agent with longOp := none } }
    let switched := ended
      { s.banks with
        active := s.banks.active.other
        other := if s.tagCount s.banks.active = 0 then .shadow else .draining
        validated := true
        loadIncomplete := false
        report := ⟨.passed, some s.banks.active.other, none, none, none, none, none, some s.lineTime⟩ } 8
    (s.running .copyBank = false → exec .copyBankComplete s = .next s) ∧
    (s.running .copyBank = true → exec .copyBankComplete s = .next (settleNotice s (ended
      { s.banks.setTables s.banks.active.other (s.banks.tables s.banks.active) with loadIncomplete := false } 11))) ∧
    (s.running .swap = true → s.banks.other = .validating →
      (∀ f, validationFailure (s.banks.tables s.banks.active.other) = some f →
        exec .validationEnd s = .next (settleNotice s (ended
          { s.banks with
            other := .shadow
            loadIncomplete := false
            report :=
              ⟨.failed, some s.banks.active.other, some f.table, some f.index, f.detail, some f.reason,
                some f.referenced, some s.lineTime⟩ } 9))) ∧
      (validationFailure (s.banks.tables s.banks.active.other) = none →
        (s.banks.validated = true → exec .validationEnd s = .next (settleNotice s switched)) ∧
        (s.banks.validated = false → ∃ order : List StationId, order.Perm [0, 1, 2, 3] ∧
          exec .validationEnd s = .next (settleNotice s
            (order.foldl State.testStation { switched with free := s.free + 1 })))))

/-- R32, R33, R44, R45: validation passes exactly where every reference of the tables stands: directory rows in range, matrix runs
within the plans and every plan of them present, overlay plans, schedules of GROUP steps, plans of CALL steps, and curves. Else
it finds the failing reference that stands ahead of every other one in the order of R44, by table, index, and step or variant
offset: its table and index, its step number (from 1) or its variant offset, its reason, and the row found, the last plan of the
run, or the plan, schedule or curve found empty. -/
def Obligations.ValidationPassesExactlySoundReferences : Prop :=
  (∀ (t : Tables) (f : ValidationFailure), t.wf = true →
    (validationFailure t = some f ↔ ReferenceFails t f ∧ ∀ f', ReferenceFails t f' → f' = f ∨ f.before f')) ∧
  ∀ t : Tables, validationFailure t = none ↔
    (∀ e ∈ t.styles, e.2.row ≤ 63) ∧
      (∀ e ∈ t.matrix, e.2.basePlan ≠ 0 → e.2.basePlan + e.2.span - 1 ≤ 512 ∧
        ∀ k < e.2.span, (t.plan? (e.2.basePlan + k)).isSome = true) ∧
      (∀ e ∈ t.overlays, (t.plan? e.2.plan).isSome = true) ∧
      (∀ e ∈ t.plans, ∀ x ∈ e.2.steps, match x with
        | .group schedule _ => (t.schedule? schedule).isSome = true
        | .call plan => (t.plan? plan).isSome = true) ∧
      (∀ e ∈ t.schedules, e.2.curve ≠ 0 → (t.curve? e.2.curve).isSome = true)

/-! ## Images -/

/-- R181, R186: a store whose every write is confirmed leaves the header, the checksum of the payload and the payload, as
LongOperationsTakeTheSlot lays them out, in the flash, sets Image Stored, frees the slot and leaves the Image Loader idle; one that
is not confirmed sets Image Fault instead, with Image Stored as it was, and changes no bank and no setting. Every octet written
before the unconfirmed one is in the flash, what that one reads as is open (log entry 21), and every octet behind it reads as
erased. While the store runs, and after one that is not confirmed, the checksum field reads 65,535. That the idle loader's fields
are cleared is log entry 38. -/
def Obligations.StoreImageEndWritesTheChecksumLast : Prop :=
  ∀ s : State,
    let stored := s.loader.stored
    (s.running .storeImage = true →
      exec (.storeImageEnd true) s = .next (settleNotice s
        { s with
          flash := stored.take 23 ++ Octets.be2 (BitVec.ofNat 16 ((stored.drop 23).map BitVec.toNat).sum) ++ stored.drop 23
          loader := Loader.start .idle
          events := { s.events with flags := s.events.flags ||| (1#29 <<< 14) }
          agent := { s.agent with longOp := none } }) ∧
      ∃ flash : List Octet,
        exec (.storeImageEnd false) s = .next (settleNotice s
          { s with
            flash := flash
            free := s.free + 1
            loader := Loader.start .idle
            events := { s.events with flags := s.events.flags ||| (1#29 <<< 13) }
            agent := { s.agent with longOp := none } }) ∧
        (23 ≤ stored.length → flashRead flash 23 2 = [255, 255] ∧
          ∀ i : Nat, i ≠ (if s.loader.position < 23 then s.loader.position else s.loader.position + 2) →
            (flash[i]?).getD 255 =
              if i < 23 then ((stored.take s.loader.position)[i]?).getD 255
              else if i < 25 then 255
              else ((stored.take s.loader.position)[i - 2]?).getD 255)) ∧
    (s.pending = [] → s.loader.activity = .store → s.running .copyBank = false → 23 ≤ stored.length →
      ∃ t, step s = .next t ∧ t.loader.stored = stored ∧ flashRead t.flash 23 2 = [255, 255])

/-- R134, R181, R183, R184, R187: a LOAD IMAGE that fails keeps what it has written, marks its bank load-incomplete, sets Image
Fault and applies no configuration; one that passes clears the mark and sets Image Loaded. While LIVE it ignores the
configuration. In COMMISSIONING it applies the ready limits, modes, hold scope and gun limits, and the shape only where every
station is OFFLINE with an empty queue; where a Section Hold ends by it, every station tests its head start condition (log entries
7, 18). Each frees the slot. A load passes only with the format mark and version, a configuration that fills its length and passes
checks 2 and 3 of CONFIGURE, no record twice, the header's record counts, and a checksum that is the payload's sum and not 65,535.
Every load, the power-up load among them, makes the units of R183 one by one up to the one that passes or fails it: the header and
the configuration part, each read octet by octet as R181 lays it out, then the records, whose fields are read as those of a WRITE
TABLE record (WriteTableIsCheckedInOrder), then the end. A record with an undefined table, an index out of range or read before, or
failing fields ends the load; one that passes is written at once, and no other entry with it. Which slot each set of gun limits is
for, and the hold scope's codes, are stated too. The model's choices: a flash that stops answering makes the load fail there, but
one that has passed every check in ticks has passed, whatever its completion says of the flash (log entry 20); the ready limit in force for a head in progress stays (R11, 36); an undefined hold scope code is a free value (22); gun
limits leave Dress Due (19); the idle loader's fields are cleared (38). -/
def Obligations.LoadImageEndMarksTheBank : Prop :=
  (∀ (s : State) (answers : Bool), s.running .loadImage = true →
    let l := s.finishLoad answers
    let passed := fun u : State =>
      { u with
        banks := { u.banks with loadIncomplete := false }
        loader := Loader.start .idle
        events := { u.events with flags := u.events.flags ||| (1#29 <<< 12) }
        agent := { u.agent with longOp := none } }
    (l.loader.phase ≠ .passed → exec (.loadImageEnd answers) s = .next (settleNotice s
      { l with
        banks := { l.banks with loadIncomplete := true }
        loader := Loader.start .idle
        events := { s.events with flags := s.events.flags ||| (1#29 <<< 13) }
        agent := { s.agent with longOp := none } })) ∧
    (l.loader.phase = .passed → s.agent.partState = .live → exec (.loadImageEnd answers) s = .next (settleNotice s
      (passed l))) ∧
    (∀ c, l.loader.phase = .passed → s.agent.partState = .commissioning → l.loader.config = some c →
      let applied :=
        if ∀ st : StationId, (s.station st).state = .offline ∧ (s.station st).queue = [] then
          (l.shaped c.shape).adjusted c true
        else l.adjusted c false
      (s.sectionHold = false ∨ applied.sectionHold = true → exec (.loadImageEnd answers) s = .next (settleNotice s
        (passed applied))) ∧
      (s.sectionHold = true → applied.sectionHold = false → ∃ order : List StationId, order.Perm [0, 1, 2, 3] ∧
        exec (.loadImageEnd answers) s = .next (settleNotice s
          (passed (order.foldl State.testStation { applied with free := s.free + 1 })))))) ∧
  (∀ (s : State) (answers : Bool),
    let l := s.finishLoad answers
    let target := if s.loader.activity = .powerUpLoad then BankId.a else s.banks.active.other
    l = { s with loader := l.loader, banks := s.banks.setTables target (l.banks.tables target) } ∧
    (s.loader.phase = .passed → l = s) ∧
    (answers = false → s.loader.phase ≠ .passed → l = { s with loader := { s.loader with phase := .failed } }) ∧
    (answers = true → (l.loader.phase = .passed ∨ l.loader.phase = .failed) ∧
      ∃ n, (l.loader, l.banks.tables target) = (loadUnit s.flash)^[n] (s.loader, s.banks.tables target))) ∧
  (∀ (flash : List Octet) (n : Nat) (a : LoaderActivity) (t : Tables),
    let l := ((loadUnit flash)^[n] (Loader.start a, t)).1
    l.phase = .passed → ∃ h c, l.header = some h ∧ l.config = some c ∧
      flashRead flash 0 5 = [0x5C, 0x41, 0x60, 0xA7, 1] ∧ readHeader (flashRead flash 0 25) = some h ∧
      readConfig (flashRead flash 25 h.configLength) = some (c, []) ∧
      (let x := c.shape
       let nodes := x.own :: x.controller :: (x.tracker.toList ++ x.robotNodes)
       1 ≤ x.stationCount ∧ x.stationCount ≤ 4 ∧ x.slotCounts.length = x.stationCount ∧
        (∀ y ∈ x.slotCounts, 1 ≤ y ∧ y ≤ 8) ∧ x.robotNodes.length = x.slotCounts.sum ∧ 0x0600 ≤ x.protocolType.toNat ∧
        (∀ y ∈ nodes, y ≠ 0 ∧ y ≠ 65535) ∧ nodes.Nodup) ∧
      l.seen.Nodup ∧ (∀ k : TableId, l.seen.countP (fun x => x.1 == k) = h.recordCounts[k.number]) ∧
      octetSum (flashRead flash 25 h.payloadLength) = h.checksum ∧ h.checksum ≠ 65535) ∧
  (∀ (flash : List Octet) (offset n : Nat),
    flashRead flash offset n = (List.range n).map fun i => (flash[offset + i]?).getD 255) ∧
  (∀ os : List Octet, octetSum os = BitVec.ofNat 16 (os.map BitVec.toNat).sum) ∧
  (∀ (os : List Octet) (h : ImageHeader), readHeader os = some h ↔
    ∃ (counts : Vector (BitVec 16) 6) (config : BitVec 16) (payload : BitVec 32) (checksum : BitVec 16)
      (rest : List Octet),
      os = [0x5C, 0x41, 0x60, 0xA7, 1] ++ counts.toList.flatMap Octets.be2 ++ Octets.be2 config ++ Octets.be4 payload ++
        Octets.be2 checksum ++ rest ∧
      h = { recordCounts := counts.map BitVec.toNat, configLength := config.toNat, payloadLength := payload.toNat
            checksum := checksum }) ∧
  (∀ (os rest : List Octet) (c : ImageConfig), readConfig os = some (c, rest) ↔
    ∃ (protocolType : BitVec 16) (own controller tracker : Node) (stationCount : Octet) (slotCounts : List Octet)
      (robots : List Node) (stations : List (BitVec 16 × List Octet)) (holdScope : Octet)
      (guns : List (BitVec 16 × BitVec 16 × BitVec 16)),
      slotCounts.length = stationCount.toNat ∧ robots.length = (slotCounts.map BitVec.toNat).sum ∧
      stations.length = stationCount.toNat ∧ (∀ y ∈ stations, y.2.length = 9) ∧
      guns.length = (slotCounts.map BitVec.toNat).sum ∧
      os = Octets.be2 protocolType ++ Octets.be2 own ++ Octets.be2 controller ++ Octets.be2 tracker ++ [stationCount] ++
        slotCounts ++ robots.flatMap Octets.be2 ++ (stations.flatMap fun y => Octets.be2 y.1 ++ y.2) ++ [holdScope] ++
        (guns.flatMap fun y => Octets.be2 y.1 ++ Octets.be2 y.2.1 ++ Octets.be2 y.2.2) ++ rest ∧
      c =
        { shape :=
            { protocolType := protocolType, own := own, controller := controller
              tracker := if tracker = 0 then none else some tracker, stationCount := stationCount.toNat
              slotCounts := slotCounts.map BitVec.toNat, robotNodes := robots }
          stations := stations.map fun y => (y.1.toNat, y.2)
          holdScope := holdScope
          guns := guns.map fun y => { dressLimit := y.1.toNat, hardLimit := y.2.1.toNat, ceiling := y.2.2.toNat } }) ∧
  (∀ (k : TableId) (os : List Octet), readRecord k (1 :: os) = (readFields k os).map fun x => (x.1.map some, x.2)) ∧
  (∀ (c : ImageConfig) (g : SlotId), imageLimits? c g =
    if (stationOf g).val < c.shape.stationCount ∧
        (positionOf g).val < (c.shape.slotCounts[(stationOf g).val]?).getD 0 then
      c.guns[(c.shape.slotCounts.take (stationOf g).val).sum + (positionOf g).val]?
    else none) ∧
  (imageScope 0 = .station ∧ imageScope 1 = .wholeSection) ∧
  (∀ (flash : List Octet) (l : Loader) (t : Tables),
    let failed := ({ l with phase := .failed }, t)
    (l.phase = .passed ∨ l.phase = .failed → loadUnit flash (l, t) = (l, t)) ∧
    (l.phase = .header →
      (readHeader (flashRead flash 0 25) = none → loadUnit flash (l, t) = failed) ∧
      (∀ h, readHeader (flashRead flash 0 25) = some h →
        loadUnit flash (l, t) = ({ l with header := some h, phase := .config, position := 25 }, t))) ∧
    (∀ h, l.phase = .config → l.header = some h →
      let os := flashRead flash l.position h.configLength
      let applies := fun c : ImageConfig =>
        readConfig os = some (c, []) ∧
          (let x := c.shape
           let nodes := x.own :: x.controller :: (x.tracker.toList ++ x.robotNodes)
           1 ≤ x.stationCount ∧ x.stationCount ≤ 4 ∧ x.slotCounts.length = x.stationCount ∧
            (∀ y ∈ x.slotCounts, 1 ≤ y ∧ y ≤ 8) ∧ x.robotNodes.length = x.slotCounts.sum ∧
            0x0600 ≤ x.protocolType.toNat ∧ (∀ y ∈ nodes, y ≠ 0 ∧ y ≠ 65535) ∧ nodes.Nodup)
      ((∀ c, ¬applies c) → loadUnit flash (l, t) = failed) ∧
      (∀ c, applies c → loadUnit flash (l, t) =
        ({ l with
            config := some c, sum := l.sum + octetSum os, phase := .records
            position := l.position + h.configLength }, t))) ∧
    (∀ h, l.phase = .records → l.header = some h →
      (25 + h.payloadLength < l.position + 1 → loadUnit flash (l, t) = failed) ∧
      (l.position + 1 = 25 + h.payloadLength →
        let sum := l.sum + octetSum (flashRead flash l.position 1)
        loadUnit flash (l, t) =
          ({ l with
              sum := sum
              position := l.position + 1
              phase := if l.counts = h.recordCounts ∧ sum = h.checksum ∧ h.checksum ≠ 65535 then .passed else .failed },
            t)))) ∧
  (∀ (flash : List Octet) (l : Loader) (t : Tables) (h : ImageHeader) (table hi lo : Octet) (fields : List Octet),
    l.phase = .records → l.header = some h → l.position + 1 < 25 + h.payloadLength →
    flashRead flash l.position 1024 = table :: hi :: lo :: fields →
    let index := (hi ++ lo).toNat
    let failed := ({ l with phase := .failed }, t)
    (5 < table.toNat → loadUnit flash (l, t) = failed) ∧
    (∀ k : TableId, table.toNat = k.number.val →
      (k.inRange index = false ∨ (k, index) ∈ l.seen → loadUnit flash (l, t) = failed) ∧
      (readFields k fields = none ∨ (∃ check rest, readFields k fields = some (.error check, rest)) →
        loadUnit flash (l, t) = failed) ∧
      (∀ r rest, readFields k fields = some (.ok r, rest) →
        ((∃ j check, recordFails t index [.ok (some r)] j check) → loadUnit flash (l, t) = failed) ∧
        (k.inRange index = true → (k, index) ∉ l.seen → (∀ j check, ¬recordFails t index [.ok (some r)] j check) →
          let length := 3 + (fields.length - rest.length)
          ∃ u, loadUnit flash (l, t) =
              ({ l with
                  sum := l.sum + octetSum (flashRead flash l.position length)
                  counts := l.counts.set k.number (l.counts[k.number] + 1)
                  position := l.position + length
                  seen := (k, index) :: l.seen }, u) ∧
            u.record? k index = (if r = .cell ⟨0, 1⟩ then none else some r) ∧
            (∀ k' n, k' ≠ k ∨ n ≠ index → u.record? k' n = t.record? k' n)))))

/-! ## Stations -/

/-- R10, R11, R12, R13, R14, R15, R18, R134: SET STATION with its checks in their order, and the move to OFFLINE, IDLE or MANUAL.
The settings are written, the ready limit brought into range and reported where it was, in octets that are the model's reading of
R192 (log entry 15). A move into IDLE tests the head start condition, which starts nothing at an empty queue; the records in the
queue are kept. The test, wherever a station makes it, leaves the state as it is where the station is not IDLE, its front record
is not QUEUED, the ACTIVE bank does not carry the validated mark, or a Section Hold is in force. Else the front record is the head
at once, ACTIVE and started now. One of unknown style is held, or released FAULTED, under the mode; the others are resolved slot
by slot as AcceptedAnnouncementJoinsTheQueue says, under the ready limit of this moment (log entry 36), and released at once where
every entry has ended and none is held, else HELD where an entry is held and DISPATCHING where none is. After each release the
station tests the next record again. That a QUEUED record has no entries and no held mark is kept by every step
(EveryStepKeepsStationsSound). That an undefined Dry octet is found with check 1 is the model's choice (log entry 29). -/
def Obligations.SetStationMovesTheStation : Prop :=
  (∀ (s : State) (st : StationId),
    (s.station st).state ≠ .idle ∨ (∀ r, (s.station st).queue.head? = some r → r.state ≠ .queued) ∨
      s.banks.validated = false ∨ s.sectionHold = true → s.testStation st = s) ∧
  (∀ (s : State) (st : StationId) (r : BodyRecord) (rest : List BodyRecord), s.queuedFresh →
    (s.station st).state = .idle → (s.station st).queue = r :: rest → r.state = .queued → s.banks.validated = true →
    s.sectionHold = false →
    let begun : BodyRecord := { r with state := .active, startedAt := some s.lineTime }
    (r.row = none → s.mode st .unknownStyle = .hold → s.testStation st =
      { s with
        tracker := { s.tracker with stations := s.tracker.stations.set st { s.station st with
          state := .held, queue := { begun with bodyHeld := true } :: rest } }
        events := { s.events with flags := s.events.flags ||| (1#29 <<< st.val) } }) ∧
    (r.row = none → s.mode st .unknownStyle = .pass →
      s.testStation st = (s.released st begun rest .faulted).testStation st) ∧
    (∀ row, r.row = some row →
      let found := s.resolutions st r.bankTag row r.variant r.options
      let head : BodyRecord := { begun with entries := found.map fun x => s.startedEntry x.1 x.2 }
      let u := s.startedHead st begun rest found
      u.station st = { s.station st with headLimit := (s.station st).readyLimit, queue := head :: rest } ∧
      s.testStation st =
        if ∀ e ∈ head.entries, e.ended = true ∧ e.held = false then
          (u.released st head rest (if ∃ e ∈ head.entries, e.state = .faulted then .faulted else .clean)).testStation st
        else { u with tracker := { u.tracker with stations := u.tracker.stations.set st { u.station st with
          state := if ∃ e ∈ head.entries, e.held = true then StationState.held else .dispatching } } })) ∧
  ∀ (s : State) (e : RequestEntry) (station mode dry : Octet) (limit : BitVec 16),
    s.executes (.setStation station mode dry limit) e →
    (3 < station.toNat ∨ s.tracker.stationCount ≤ station.toNat ∨ 2 < mode.toNat ∨ 1 < dry.toNat →
      exec (.setStation station mode dry limit) s = .next (s.replied e .badParameter [])) ∧
    (∀ st : StationId, station.toNat = st.val → st.val < s.tracker.stationCount → mode.toNat ≤ 2 → dry.toNat ≤ 1 →
      let refusal :=
        if (s.station st).state = .dispatching ∨ (s.station st).state = .held then some .wrongState
        else if s.agent.partState = .commissioning ∧ mode ≠ 0 ∧ dry = 0 then some .notPermitted
        else none
      let stored := if limit.toNat < 100 then 100 else if 30000 < limit.toNat then 30000 else limit.toNat
      let moved := { s with
        tracker := { s.tracker with
          stations := s.tracker.stations.set st { s.station st with
            state := if mode = 0 then .offline else if mode = 1 then .idle else .manual
            dry := decide (dry = 1)
            readyLimit := stored } } }
      let answered := fun (u : State) =>
        if stored = limit.toNat then u.replied e .done []
        else u.replied e .doneClamped ([mode, dry] ++ Octets.nat2 stored)
      (∀ result, refusal = some result → exec (.setStation station mode dry limit) s = .next (s.replied e result [])) ∧
      (refusal = none →
        (mode ≠ 1 ∨ (s.station st).queue = [] →
          exec (.setStation station mode dry limit) s = .next (answered moved)) ∧
        exec (.setStation station mode dry limit) s = .next (settleNotice s (answered (
          if mode = 1 ∧ (s.station st).state ≠ .idle then moved.testStation st else moved)))))

/-- R122, R123, R124: SET FAULT MODES with 1 to 9 pairs of defined, allowed modes and no kind twice gives the station each pair's
mode for its kind, and leaves every other mode, and everything else, as it was; any other list is refused and changes nothing.
Ready Refused, Expansion Error and Unknown Style allow HOLD and PASS, the six other kinds all four modes; kinds are numbered 0 to
8 in the order of R122 and modes 0 to 3 (R192). -/
def Obligations.SetFaultModesWritesTheNamedModes : Prop :=
  (∀ (k : FaultKind) (m : FaultMode), k.allows m = true ↔
    (k = .readyRefused ∨ k = .expansionError ∨ k = .unknownStyle → m = .hold ∨ m = .pass)) ∧
  (∀ o : Octet, faultKindOf? o = [FaultKind.readyTimeout, .readyRefused, .cycleTimeout, .shortCycle, .spotShortfall,
      .qualityReject, .wearOverrun, .expansionError, .unknownStyle][o.toNat]? ∧
    modeOf? o = [FaultMode.hold, .pass, .warn, .off][o.toNat]?) ∧
  (∀ (k : FaultKind) (m : FaultMode), faultKindOf? (BitVec.ofNat 8 k.number.val) = some k ∧
    modeOf? (BitVec.ofNat 8 m.code) = some m ∧ k ∈ allKinds) ∧
  ∀ (s : State) (e : RequestEntry) (station : Octet) (octets : List (Octet × Octet)),
    s.executes (.setFaultModes station octets) e →
    (3 < station.toNat ∨ octets = [] ∨ 9 < octets.length ∨
        (∃ x ∈ octets, faultKindOf? x.1 = none ∨ modeOf? x.2 = none) ∨ ¬(octets.map (·.1)).Nodup ∨
        (∃ x ∈ octets, ∃ k m, faultKindOf? x.1 = some k ∧ modeOf? x.2 = some m ∧ k.allows m = false) →
      exec (.setFaultModes station octets) s = .next (s.replied e .badParameter [])) ∧
    (∀ st : StationId, ∀ pairs : List (FaultKind × FaultMode), station.toNat = st.val →
      octets = pairs.map (fun x => (BitVec.ofNat 8 x.1.number.val, BitVec.ofNat 8 x.2.code)) →
      1 ≤ pairs.length → pairs.length ≤ 9 → (∀ x ∈ pairs, x.1.allows x.2 = true) → (pairs.map (·.1)).Nodup →
      ∃ modes, exec (.setFaultModes station octets) s = .next (State.replied
          { s with tracker := { s.tracker with
              stations := s.tracker.stations.set st { s.station st with modes := modes } } } e .done []) ∧
        (∀ x ∈ pairs, modes[x.1.number] = x.2) ∧
        (∀ k ∈ allKinds, (∀ x ∈ pairs, x.1 ≠ k) → modes[k.number] = (s.station st).modes[k.number]))

/-- R12, R133, R134: SET HOLD SCOPE writes the hold scope, and nothing else changes; but where a Section Hold ends by it, every
station tests its head start condition, in an order that is open (log entry 7). -/
def Obligations.SetHoldScopeWritesTheScope : Prop :=
  ∀ (s : State) (e : RequestEntry) (scope : Octet), s.executes (.setHoldScope scope) e →
    (1 < scope.toNat → exec (.setHoldScope scope) s = .next (s.replied e .badParameter [])) ∧
    (scope = 0 → s.sectionHold = false → exec (.setHoldScope scope) s = .next (State.replied
      { s with holdScope := .station } e .done [])) ∧
    (scope = 0 → s.sectionHold = true → ∃ order : List StationId, order.Perm [0, 1, 2, 3] ∧
      exec (.setHoldScope scope) s = .next (settleNotice s (State.replied
        (order.foldl State.testStation { s with holdScope := .station, free := s.free + 1 }) e .done []))) ∧
    (scope = 1 → exec (.setHoldScope scope) s = .next (State.replied { s with holdScope := .wholeSection } e .done []))

/-- R17, R18, R22, R101, R134, R135, R136, R137, R138, R139, R140, R141: CLEAR STATION. Refusals first. RETRY and SKIP act on the
held entries of the head in ascending position, each as `retried` and `skipped` state it (log entries 17, 28); the head is then
released, or its station HELD or DISPATCHING. Spelled out for a head of one held entry: RETRY of a WAITING or SELECTED one that
resolves without a fault selects the slot anew; RETRY of a LOADED one keeps it LOADED without a cycle timer; the entry is warned
and no longer held, and the station DISPATCHING. SKIP, and RETRY of a FINISHED one, make it FAULTED, its selection called off. A
head held for Unknown Style: RETRY with a style row found starts the head afresh under the ACTIVE bank's tag, each slot with a
plan as at any head start (`startedEntry`), under the ready limit of this moment (log entry 36), so that it is released at once,
HELD or DISPATCHING; and a DRAINING bank that loses its last record becomes SHADOW; with none found, the mode for Unknown Style is
applied again; SKIP releases it FAULTED. ABORT gives up each entry and releases the head ABORTED. After a release the station
tests its head start condition, and the reply carries IDLE, the state before that test (log entry 14); where a Section Hold ends,
every station tests (log entry 7), after the released station's own test (log entry 8). -/
def Obligations.ClearStationGivesUpOrRetriesTheHead : Prop :=
  ∀ (s : State) (e : RequestEntry) (station option : Octet), s.executes (.clearStation station option) e →
    (3 < station.toNat ∨ s.tracker.stationCount ≤ station.toNat ∨ 2 < option.toNat →
      exec (.clearStation station option) s = .next (s.replied e .badParameter [])) ∧
    (∀ st : StationId, station.toNat = st.val → st.val < s.tracker.stationCount → option.toNat ≤ 2 →
      ((s.station st).state ≠ .held → exec (.clearStation station option) s = .next (s.replied e .wrongState [])) ∧
      (∀ r, (s.station st).state = .held → (s.station st).queue = [r] → r.state = .active → r.bodyHeld = true →
        r.entries = [] → s.holdScope = .station → s.unmirrored st .release → option ≠ 0 →
        let x := s.station st
        let outcome := if option = 1 then BodyOutcome.faulted else .aborted
        exec (.clearStation station option) s = .next (State.replied
          { s with
            tracker := { s.tracker with stations := s.tracker.stations.set st { x with
              state := .idle, queue := [], counters := x.counters.released outcome } }
            tags := (s.disown st).tags
            ports := { s.ports with uplinkOwn := s.ports.uplinkOwn ++ [.release (s.envelopeTo s.reportNode)
              { r with
                station := st, bodyHeld := false, state := .releasing, releasedAt := some s.lineTime
                outcome := some outcome }] } }
          e .done [1])) ∧
      (∀ r x rest, option = 0 → (s.station st).state = .held → (s.station st).queue = r :: rest →
        r.state = .active → r.bodyHeld = false → r.entries = [x] → x.held = true →
        let g := slotOf st x.position
        let tag := (s.tagState g).next
        let retried := fun (y : SlotEntry) => { s.tracker with
          stations := s.tracker.stations.set st { s.station st with
            state := .dispatching, queue := { r with entries := [y] } :: rest } }
        (x.state = .loaded →
          let settled := { s with
            tags := s.tags.set g { s.tagState g with cycleTimer := none }
            tracker := retried { x with held := false, warned := true }
            events := { s.events with flags := s.events.flags ||| (1#29 <<< (4 + st.val)) } }
          s.settlesTo (.clearStation station option) settled settled (·.replied e .done [2])) ∧
        (∀ row y, x.state = .waiting ∨ x.state = .selected → r.row = some row →
          resolve (s.banks.tables r.bankTag) (s.gun g) (s.mode st .wearOverrun != .off) row r.variant r.options g = some y →
          y.fault = none →
          let settled := { s with
            resolver := ⟨[], []⟩
            tracker := retried { y.selected g tag with
              warned := true, refusalReason := x.refusalReason, spotsWelded := x.spotsWelded
              selectedAt := x.selectedAt }
            ports := { s.ports with
              cellOwn := (s.ports.cellOwn.filter fun z => z.slot ≠ g) ++
                [⟨g, ⟨(s.robotNode? g).getD 0, s.filter.ownNode, s.filter.protocolType⟩,
                  .select ⟨tag, r.bodyId, y.program.getD 0, (s.station st).dry, y.dressRequested, y.wearUnconfirmed,
                    y.groups⟩⟩] }
            tags := s.tags.set g
              { next := if tag = 65535 then 1 else tag + 1
                current := tag
                cancelled := if (s.tagState g).current = 0 then (s.tagState g).cancelled else (s.tagState g).current
                owned := true, readyTimer := none, cycleTimer := none }
            guns := s.guns.set g { s.gun g with
              dressDue := (s.gun g).dressDue || (y.consulted && y.dressRequested) }
            events := { s.events with
              flags := s.events.flags ||| ((1#29 <<< (4 + st.val)) |||
                (if y.consulted = true ∧ y.wearUnconfirmed = true then 1#29 <<< 19 else 0)) } }
          s.settlesTo (.clearStation station option) settled settled (·.replied e .done [2]))) ∧
      (∀ (r : BodyRecord) (rest : List BodyRecord) (row : Nat), option = 0 → (s.station st).state = .held →
        (s.station st).queue = r :: rest → r.state = .active →
        r.bodyHeld = true → r.entries = [] → (s.banks.tables s.banks.active).styleRow? r.style = some row →
        let fresh : BodyRecord := { r with
          row := some row, bankTag := s.banks.active, bodyHeld := false, startedAt := some s.lineTime }
        let tagged : State := { s with
          tracker := { s.tracker with
            stations := s.tracker.stations.set st { s.station st with queue := fresh :: rest } } }
        let found := s.resolutions st s.banks.active row r.variant r.options
        let base : State :=
          if r.bankTag ≠ s.banks.active ∧ s.banks.other = .draining ∧ tagged.tagCount s.banks.active.other = 0 then
            { s with
              banks := { s.banks with other := .shadow, loadIncomplete := false }
              events := { s.events with flags := s.events.flags ||| (1#29 <<< 10) } }
          else s
        let head : BodyRecord := { fresh with entries := found.map fun x => s.startedEntry x.1 x.2 }
        let u := base.startedHead st fresh rest found
        u.station st = { s.station st with headLimit := (s.station st).readyLimit, queue := head :: rest } ∧
        ((∀ y ∈ head.entries, y.ended = true ∧ y.held = false) → (∀ y ∈ rest, y.state = .queued) →
          let settled := u.released st head rest (if ∃ y ∈ head.entries, y.state = .faulted then .faulted else .clean)
          s.settlesTo (.clearStation station option) settled (settled.testStation st) (·.replied e .done [1])) ∧
        ((∃ y ∈ head.entries, y.ended = false ∨ y.held = true) →
          let stillHeld := ∃ y ∈ head.entries, y.held = true
          let settled := { u with tracker := { u.tracker with
            stations := u.tracker.stations.set st { u.station st with
              state := if stillHeld then .held else .dispatching } } }
          s.settlesTo (.clearStation station option) settled settled
            (·.replied e .done [if stillHeld then 3 else 2])) ∧
        (found ≠ [] → (∀ y ∈ found, y.2.fault = none) →
          let settled := base.selecting st fresh rest found
          s.settlesTo (.clearStation station option) settled settled (·.replied e .done [2]))) ∧
      (∀ (r : BodyRecord) (rest : List BodyRecord), option = 0 → (s.station st).state = .held →
        (s.station st).queue = r :: rest → r.state = .active → r.bodyHeld = true → r.entries = [] →
        (s.banks.tables s.banks.active).styleRow? r.style = none →
        (s.mode st .unknownStyle ≠ .pass →
          let settled := s.flagged (1#29 <<< st.val)
          s.settlesTo (.clearStation station option) settled settled (·.replied e .done [3])) ∧
        (s.mode st .unknownStyle = .pass → (∀ y ∈ rest, y.state = .queued) →
          let settled := s.released st { r with bodyHeld := false } rest .faulted
          s.settlesTo (.clearStation station option) settled (settled.testStation st) (·.replied e .done [1]))) ∧
      (∀ (r kept : BodyRecord) (rest : List BodyRecord), option ≠ 2 → (s.station st).state = .held →
        (s.station st).queue = r :: rest → r.state = .active →
        let u := (r.entries.map fun x => slotOf st x.position).foldl
          (if option = 0 then State.retried else State.skipped) s
        (u.station st).queue = kept :: rest → kept.state = .active → kept.bodyHeld = false →
        ((∀ y ∈ kept.entries, y.ended = true ∧ y.held = false) →
          let settled := u.released st kept rest
            (if ∃ y ∈ kept.entries, y.state = .faulted then .faulted else .clean)
          s.settlesTo (.clearStation station option) settled (settled.testStation st) (·.replied e .done [1])) ∧
        ((∃ y ∈ kept.entries, y.ended = false ∨ y.held = true) →
          let stillHeld := ∃ y ∈ kept.entries, y.held = true
          let settled := { u with tracker := { u.tracker with
            stations := u.tracker.stations.set st { u.station st with
              state := if stillHeld then .held else .dispatching } } }
          s.settlesTo (.clearStation station option) settled settled
            (·.replied e .done [if stillHeld then 3 else 2]))) ∧
      (∀ (r kept : BodyRecord) (rest : List BodyRecord) (u : State) (outcome : BodyOutcome),
        (s.station st).state = .held → (s.station st).queue = r :: rest → r.state = .active →
        (∀ y ∈ rest, y.state = .queued) →
        (option = 1 ∧ r.bodyHeld = true ∧ r.entries = [] ∧ u = s ∧ kept = r ∧ outcome = .faulted) ∨
          (∃ x, r.entries = [x] ∧ r.bodyHeld = false ∧ x.held = true ∧
            (option = 1 ∧ (x.state = .waiting ∨ x.state = .selected ∨ x.state = .loaded ∨ x.state = .finished) ∨
              option = 0 ∧ x.state = .finished) ∧
            u = (if (x.state = .selected ∨ x.state = .loaded) ∧ (s.tagState (slotOf st x.position)).current ≠ 0 then
              s.calledOff (slotOf st x.position) else s) ∧
            kept = { r with entries := [{ x with state := .faulted, held := false }] } ∧ outcome = .faulted) ∨
          (option = 2 ∧ u = (r.entries.map fun x => slotOf st x.position).foldl State.givenUp s ∧
            (u.station st).queue = kept :: rest ∧ kept.state = .active ∧ outcome = .aborted) →
        let settled := u.released st { kept with bodyHeld := false } rest outcome
        s.settlesTo (.clearStation station option) settled (settled.testStation st) (·.replied e .done [1])))

/-- R8, R18, R21, R22, R134, R178: a WITHDRAW from the controller or tracker node, and a WITHDRAW BODY. A QUEUED record leaves its queue
wherever it stands, and its RELEASE, ABORTED and without slot entries, joins the Uplink own-telegram queue; the aborted
counter rises, and the station's state is unchanged. A head gives up each of its entries and is released ABORTED, and its
station tests its head start condition; where a Section Hold ends by it, every station does (log entry 7), after that station's
own test (log entry 8). Each RELEASE record is offered to the Mirror Channels in ascending number. A WITHDRAW from
another node is refused with Source; an unconfigured station and a body that is not in the queue are refused, each logged and
counted, and WITHDRAW BODY is answered BAD PARAMETER and NOT FOUND for them. -/
def Obligations.WithdrawalReleasesAQueuedBodyAborted : Prop :=
  ∀ (s : State) (e : RequestEntry) (source : Node) (bodyId : BodyId) (station : Octet),
    let logged : RefusalReason → State := fun reason => { s with
      tracker := { s.tracker with
        refusalLog := (s.tracker.refusalLog ++ [RefusalEntry.mk bodyId station reason s.lineTime]).drop
          (s.tracker.refusalLog.length + 1 - 4) }
      events := { s.events with
        refusals := bump s.events.refusals
        flags := s.events.flags ||| (1#29 <<< 15) } }
    let released := fun (st : StationId) (queue : List BodyRecord) (r : BodyRecord) =>
      let record : BodyRecord :=
        { r with
          station := st, entries := [], state := .releasing, releasedAt := some s.lineTime
          outcome := some .aborted }
      State.offered
        { s with
          tracker := { s.tracker with stations := s.tracker.stations.set st { s.station st with
            queue := queue
            counters := { (s.station st).counters with aborted := bump (s.station st).counters.aborted } } }
          ports := { s.ports with
            uplinkOwn := s.ports.uplinkOwn ++ [.release (s.envelopeTo s.reportNode) record] } }
        st (.release record)
    let headReleased := fun (st : StationId) (settled : State) => ∃ r rest kept,
      (s.station st).queue = r :: rest ∧ r.bodyId = bodyId ∧ r.state = .active ∧
        let u := (r.entries.map fun x => slotOf st x.position).foldl State.givenUp s
        (u.station st).queue = kept :: rest ∧ kept.state = .active ∧
          settled = u.released st { kept with bodyHeld := false } rest .aborted
    let known := s.filter.controllerNode = some source ∨ s.filter.trackerNode = some source
    (s.ports.uplinkUp = true → source ≠ 0 → source ≠ 65535 → source ≠ s.filter.ownNode →
      (¬known → exec (.withdraw source bodyId station) s = .next (settleNotice s (logged .source))) ∧
      (known → 3 < station.toNat ∨ s.tracker.stationCount ≤ station.toNat →
        exec (.withdraw source bodyId station) s = .next (settleNotice s (logged .noSuchStation))) ∧
      (known → ∀ st : StationId, station.toNat = st.val → st.val < s.tracker.stationCount →
        ((∀ r ∈ (s.station st).queue, r.bodyId ≠ bodyId) →
          exec (.withdraw source bodyId station) s = .next (settleNotice s (logged .notFound))) ∧
        (∀ ahead r behind, (s.station st).queue = ahead ++ r :: behind → r.bodyId = bodyId →
          (∀ y ∈ ahead ++ behind, y.bodyId ≠ bodyId) → r.state = .queued →
          exec (.withdraw source bodyId station) s = .next (settleNotice s (released st (ahead ++ behind) r))) ∧
        (∀ settled, headReleased st settled →
          s.settlesTo (.withdraw source bodyId station) settled (settled.testStation st) id))) ∧
    (s.executes (.withdrawBody bodyId station) e →
      (3 < station.toNat ∨ s.tracker.stationCount ≤ station.toNat → exec (.withdrawBody bodyId station) s =
        .next (settleNotice s ((logged .noSuchStation).replied e .badParameter []))) ∧
      (∀ st : StationId, station.toNat = st.val → st.val < s.tracker.stationCount →
        ((∀ r ∈ (s.station st).queue, r.bodyId ≠ bodyId) → exec (.withdrawBody bodyId station) s =
          .next (settleNotice s ((logged .notFound).replied e .notFound []))) ∧
        (∀ ahead r behind, (s.station st).queue = ahead ++ r :: behind → r.bodyId = bodyId →
          (∀ y ∈ ahead ++ behind, y.bodyId ≠ bodyId) → r.state = .queued →
          exec (.withdrawBody bodyId station) s =
            .next (settleNotice s ((released st (ahead ++ behind) r).replied e .done []))) ∧
        (∀ settled, headReleased st settled →
          s.settlesTo (.withdrawBody bodyId station) settled (settled.testStation st) (·.replied e .done []))))

/-! ## Guns -/

/-- R76, R192: SET GUN brings the dress limit into 100 to 60,000, the ceiling into 20 to 1,800, and a hard limit below the resulting
dress limit up to it; writes the three; clears Dress Due where the dress limit is above the wear; and reports the values
stored where one was changed, in octets that are the model's reading of R192 (log entry 15). -/
def Obligations.SetGunStoresClampedLimits : Prop :=
  ∀ (s : State) (e : RequestEntry) (g : SlotId) (dress hard ceiling : BitVec 16),
    s.executes (.setGun (BitVec.ofNat 8 g.val) dress hard ceiling) e → s.gunBusy g = false →
    let d := if dress.toNat < 100 then 100 else if 60000 < dress.toNat then 60000 else dress.toNat
    let c := if ceiling.toNat < 20 then 20 else if 1800 < ceiling.toNat then 1800 else ceiling.toNat
    let h := max hard.toNat d
    let t := { s with guns := s.guns.set g { s.gun g with
      dressLimit := d, hardLimit := h, ceiling := c
      dressDue := if (s.gun g).wear < d then false else (s.gun g).dressDue } }
    exec (.setGun (BitVec.ofNat 8 g.val) dress hard ceiling) s = .next (
      if d = dress.toNat ∧ c = ceiling.toNat ∧ h = hard.toNat then t.replied e .done []
      else t.replied e .doneClamped (Octets.nat2 d ++ Octets.nat2 h ++ Octets.nat2 c))

/-- R77, R78: SET WEAR gives the gun the wear, clears Wear Unknown, and clears Dress Due where the wear is below the dress limit.
RESET WEAR makes the wear 0, clears Dress Due and Wear Unknown, and raises the cap change count unless it stands at 65,535.
Both are answered DONE and change nothing else. -/
def Obligations.WearRequestsWriteTheWear : Prop :=
  ∀ (s : State) (e : RequestEntry) (g : SlotId) (wear : BitVec 16), s.gunBusy g = false →
    (s.executes (.setWear (BitVec.ofNat 8 g.val) wear) e →
      exec (.setWear (BitVec.ofNat 8 g.val) wear) s = .next (State.replied
        { s with guns := s.guns.set g { s.gun g with
            wear := wear.toNat, wearUnknown := false
            dressDue := if wear.toNat < (s.gun g).dressLimit then false else (s.gun g).dressDue } } e .done [])) ∧
    ((s.gun g).capChanges ≤ 65535 → s.executes (.resetWear (BitVec.ofNat 8 g.val)) e →
      exec (.resetWear (BitVec.ofNat 8 g.val)) s = .next (State.replied
        { s with guns := s.guns.set g { s.gun g with
            wear := 0, wearUnknown := false, dressDue := false
            capChanges := if (s.gun g).capChanges = 65535 then 65535 else (s.gun g).capChanges + 1 } } e .done []))

/-- R79: SET GUN, SET WEAR and RESET WEAR of a global slot above 31 are answered BAD PARAMETER, and of a gun whose entry in the head
is SELECTED or LOADED BUSY; a refused one changes nothing. -/
def Obligations.GunRequestsAreRefusedWhileSelected : Prop :=
  ∀ (s : State) (e : RequestEntry) (slot : Octet) (a b c : BitVec 16) (result : ResultCode),
    (31 < slot.toNat ∧ result = .badParameter) ∨
      (∃ g : SlotId, ∃ x, slot.toNat = g.val ∧ s.entry? g = some x ∧ (x.state = .selected ∨ x.state = .loaded) ∧
        result = .busy) →
    (s.executes (.setGun slot a b c) e → exec (.setGun slot a b c) s = .next (s.replied e result [])) ∧
      (s.executes (.setWear slot a) e → exec (.setWear slot a) s = .next (s.replied e result [])) ∧
      (s.executes (.resetWear slot) e → exec (.resetWear slot) s = .next (s.replied e result []))

/-! ## Events, mirrors and the part -/

/-- R172, R173: CLEAR EVENTS answers the flags and enables as they stood and clears the named flags; SET EVENT ENABLE writes the
enables and answers them, queuing a NOTICE where it enables a set flag; a mask that names an index above 28 is refused. -/
def Obligations.EventRequestsClearAndEnable : Prop :=
  ∀ (s : State) (e : RequestEntry) (mask : BitVec 32),
    (s.executes (.clearEvents mask) e →
      (2 ^ 29 ≤ mask.toNat → exec (.clearEvents mask) s = .next (s.replied e .badParameter [])) ∧
      (mask.toNat < 2 ^ 29 → exec (.clearEvents mask) s = .next (State.replied
        { s with events := { s.events with flags := s.events.flags &&& ~~~(mask.setWidth 29) } } e .done
        (Octets.be4 (s.events.flags.setWidth 32) ++ Octets.be4 (s.events.enables.setWidth 32))))) ∧
    (s.executes (.setEventEnable mask) e →
      (2 ^ 29 ≤ mask.toNat → exec (.setEventEnable mask) s = .next (s.replied e .badParameter [])) ∧
      (mask.toNat < 2 ^ 29 → exec (.setEventEnable mask) s = .next (settleNotice s (State.replied
        { s with events := { s.events with enables := mask.setWidth 29 } } e .done (Octets.be4 mask)))))

/-- R177, R192: SET MIRROR is refused, and changes nothing, for a channel above 7, an undefined option, and, for ARM, an undefined
trigger, an empty station mask, a destination of 0, 65535 or the own node, a count of 0 or an undefined count form. ARM with a
defined trigger, a station mask that is not empty, a valid destination, and a count of 1 to 255 or CONTINUOUS, writes the four
settings, sets Remaining and Armed, and keeps the Copy Lost counter; DISARM clears Armed alone. The reply carries the channel's fields as
stored, in the order of R177: trigger, station mask, destination node, count, Remaining, Armed, Copy Lost counter. Their octets are
the model's reading of R192 (log entry 15). -/
def Obligations.SetMirrorArmsAndDisarms : Prop :=
  ∀ (s : State) (e : RequestEntry) (c : ChannelId) (trigger mask : Octet) (destination : Node) (form count : Octet)
    (k : Trigger),
    let fields : Channel → List Octet := fun x =>
      [match x.trigger with | .release => 0 | .slotDone => 1 | .slotFault => 2, x.stationMask.setWidth 8] ++
        (match x.destination with | none => [255, 255] | some node => Octets.be2 node) ++
        (match x.count with | none => [1, 0] | some n => [0] ++ Octets.nat1 n) ++
        Octets.nat1 x.remaining ++ [if x.armed = true then 1 else 0] ++ Octets.nat2 x.copyLost
    (∀ channel option : Octet, s.executes (.setMirror channel option trigger mask destination form count) e →
      7 < channel.toNat ∨ 1 < option.toNat ∨ (option = 1 ∧ (2 < trigger.toNat ∨ mask.toNat % 16 = 0 ∨ destination = 0 ∨
        destination = 65535 ∨ destination = s.filter.ownNode ∨ (form = 0 ∧ count = 0) ∨ 1 < form.toNat)) →
      exec (.setMirror channel option trigger mask destination form count) s = .next (s.replied e .badParameter [])) ∧
    (s.executes (.setMirror (BitVec.ofNat 8 c.val) 0 0 0 0 0 0) e →
      exec (.setMirror (BitVec.ofNat 8 c.val) 0 0 0 0 0 0) s = .next (State.replied
        { s with channels := s.channels.set c { s.channels[c] with armed := false } } e .done
        (fields { s.channels[c] with armed := false }))) ∧
    (s.executes (.setMirror (BitVec.ofNat 8 c.val) 1 trigger mask destination form count) e →
      (trigger.toNat = 0 ∧ k = .release ∨ trigger.toNat = 1 ∧ k = .slotDone ∨ trigger.toNat = 2 ∧ k = .slotFault) →
      mask.toNat % 16 ≠ 0 → destination ≠ 0 → destination ≠ 65535 → destination ≠ s.filter.ownNode →
      (form = 0 ∧ count ≠ 0) ∨ form = 1 →
      let x : Channel := { s.channels[c] with
        trigger := k, stationMask := mask.setWidth 4, destination := some destination
        count := if form = 1 then none else some count.toNat
        remaining := if form = 1 then 0 else count.toNat
        armed := true }
      exec (.setMirror (BitVec.ofNat 8 c.val) 1 trigger mask destination form count) s = .next (State.replied
        { s with channels := s.channels.set c x } e .done (fields x)))

/-- R152, R178, R179: a channel that matches a record places one COPY while fewer than 11 wait: with a count its Remaining falls,
and at 0 the channel is disarmed and Mirror Exhausted is set; CONTINUOUS it stays armed as it is. With 11 waiting the COPY is
lost, the channel's Copy Lost counter rises, its Remaining stays, and Copy Lost is set. -/
def Obligations.MirrorPlacesOrLosesItsCopy : Prop :=
  ∀ (s : State) (st : StationId) (content : CopyContent) (c : ChannelId),
    let x := s.channels[c]
    x.armed = true → x.trigger = content.trigger → x.stationMask.getLsbD st.val = true →
    let queued := s.ports.uplinkOwn ++ [.copy (s.envelopeTo (x.destination.getD 0)) c st s.lineTime content]
    (∀ n, x.count = some n → 1 ≤ x.remaining → s.copiesWaiting < 11 → offerCopy st content s c =
      let placed := { s with
        ports := { s.ports with uplinkOwn := queued }
        channels := s.channels.set c { x with remaining := x.remaining - 1, armed := decide (x.remaining ≠ 1) } }
      if x.remaining = 1 then
        { placed with events := { s.events with flags := s.events.flags ||| (1#29 <<< (20 + c.val)) } }
      else placed) ∧
    (x.count = none → s.copiesWaiting < 11 →
      offerCopy st content s c = { s with ports := { s.ports with uplinkOwn := queued } }) ∧
    (11 ≤ s.copiesWaiting → offerCopy st content s c =
      { s with
        channels := s.channels.set c { x with copyLost := bump x.copyLost }
        events := { s.events with flags := s.events.flags ||| (1#29 <<< 28) } })

/-- R162: CONFIGURE with its checks in their order: LIVE; a station count outside 1 to 4, a slot count outside 1 to 8, another
number of robot nodes than configured slots, a Protocol Type below 0x0600, or a node 0 or 65535, a tracker field of 0 excepted;
two equal nodes; a station at work; a LOAD IMAGE running. An accepted one writes the nodes, the Protocol Type, the station count
and the slot counts, gives each configured slot its robot node in ascending global slot order, returns to its power-up values the
tag state of every slot that it leaves unconfigured or whose robot node it changes, removes the CANCELs that wait for such slots,
and changes nothing else; the DONE is built under the new settings. -/
def Obligations.ConfigureWritesTheShape : Prop :=
  ∀ (s : State) (e : RequestEntry) (p : BitVec 16) (own ctl trk : Node) (n : Octet) (counts : List Octet)
    (robots : List Node), s.executes (.configure p own ctl trk n counts robots) e →
    let x := shapeOf p own ctl trk n counts robots
    let nodes := own :: ctl :: ((if trk = 0 then [] else [trk]) ++ robots)
    let outOfRange := n.toNat < 1 ∨ 4 < n.toNat ∨ counts.length ≠ n.toNat ∨ (∃ y ∈ counts, y.toNat < 1 ∨ 8 < y.toNat) ∨
      robots.length ≠ (counts.map BitVec.toNat).sum ∨ p.toNat < 0x0600 ∨ ∃ y ∈ nodes, y = 0 ∨ y = 65535
    (s.agent.partState = .live →
      exec (.configure p own ctl trk n counts robots) s = .next (s.replied e .notPermitted [])) ∧
    (s.agent.partState = .commissioning → outOfRange ∨ ¬nodes.Nodup →
      exec (.configure p own ctl trk n counts robots) s = .next (s.replied e .badParameter [])) ∧
    (s.agent.partState = .commissioning → ¬outOfRange → nodes.Nodup →
      ((∃ st : StationId, (s.station st).state ≠ .offline ∨ (s.station st).queue ≠ []) →
        exec (.configure p own ctl trk n counts robots) s = .next (s.replied e .wrongState [])) ∧
      ((∀ st : StationId, (s.station st).state = .offline ∧ (s.station st).queue = []) → s.running .loadImage = true →
        exec (.configure p own ctl trk n counts robots) s = .next (s.replied e .busy [])) ∧
      ((∀ st : StationId, (s.station st).state = .offline ∧ (s.station st).queue = []) → s.running .loadImage = false →
        let t := s.shaped x
        exec (.configure p own ctl trk n counts robots) s = .next (t.replied e .done []) ∧
          t.filter = { s.filter with
            protocolType := p, ownNode := own, controllerNode := some ctl
            trackerNode := if trk = 0 then none else some trk, robotNodes := x.nodes } ∧
          t.tracker = { s.tracker with stationCount := n.toNat, slotCounts := x.counts } ∧
          (∀ st : StationId, t.tracker.slotCounts[st] = ((counts[st.val]?).map BitVec.toNat).getD 0) ∧
          (∀ g : SlotId, t.filter.robotNodes[g] =
            if t.slotConfigured g = true then
              robots[((counts.take (stationOf g).val).map BitVec.toNat).sum + (positionOf g).val]?
            else none) ∧
          (∀ g : SlotId, t.slotConfigured g = true ↔ (t.filter.robotNodes[g]).isSome = true) ∧
          (∀ g : SlotId, t.tagState g =
            if t.slotConfigured g = true ∧ t.robotNode? g = s.robotNode? g then s.tagState g
            else ⟨1, 0, 0, false, none, none⟩) ∧
          (∀ y, y ∈ t.ports.cellOwn ↔ y ∈ s.ports.cellOwn ∧ ((∃ content, y.body = .select content) ∨
            (t.slotConfigured y.slot = true ∧ t.robotNode? y.slot = s.robotNode? y.slot))) ∧
          t.ports.cellOwn.Sublist s.ports.cellOwn ∧ t.ports = { s.ports with cellOwn := t.ports.cellOwn } ∧
          t = { s with filter := t.filter, tracker := t.tracker, tags := t.tags, ports := t.ports }))

/-- R163: GO LIVE is NOT PERMITTED while LIVE, WRONG STATE without the validated mark or a station, and otherwise makes the part
LIVE and changes nothing else. -/
def Obligations.GoLiveSetsThePartLive : Prop :=
  ∀ (s : State) (e : RequestEntry), s.executes .goLive e →
    exec .goLive s = .next (
      if s.agent.partState = .live then s.replied e .notPermitted []
      else if s.banks.validated = false ∨ s.tracker.stationCount = 0 then s.replied e .wrongState []
      else State.replied { s with agent := { s.agent with partState := .live } } e .done [])

end Statements
end

