-- ==== Sys2Proof/Laws/State.lean ====
section
/-! SUPPORT. The state's updates field by field: what each update of one block makes of every field, and the same of the
updates of one station, gun, tag state, channel and flag, so that no later proof unfolds a record update. -/

namespace Sys2Proof.Machine

section Blocks

variable (s : State)

@[simp] theorem State.setPorts_pending (v : Ports) : (s.setPorts v).pending = s.pending := rfl
@[simp] theorem State.setPorts_free (v : Ports) : (s.setPorts v).free = s.free := rfl
@[simp] theorem State.setPorts_lineTime (v : Ports) : (s.setPorts v).lineTime = s.lineTime := rfl
@[simp] theorem State.setPorts_ports (v : Ports) : (s.setPorts v).ports = v := rfl
@[simp] theorem State.setPorts_filter (v : Ports) : (s.setPorts v).filter = s.filter := rfl
@[simp] theorem State.setPorts_tracker (v : Ports) : (s.setPorts v).tracker = s.tracker := rfl
@[simp] theorem State.setPorts_banks (v : Ports) : (s.setPorts v).banks = s.banks := rfl
@[simp] theorem State.setPorts_resolver (v : Ports) : (s.setPorts v).resolver = s.resolver := rfl
@[simp] theorem State.setPorts_guns (v : Ports) : (s.setPorts v).guns = s.guns := rfl
@[simp] theorem State.setPorts_tags (v : Ports) : (s.setPorts v).tags = s.tags := rfl
@[simp] theorem State.setPorts_holdScope (v : Ports) : (s.setPorts v).holdScope = s.holdScope := rfl
@[simp] theorem State.setPorts_agent (v : Ports) : (s.setPorts v).agent = s.agent := rfl
@[simp] theorem State.setPorts_events (v : Ports) : (s.setPorts v).events = s.events := rfl
@[simp] theorem State.setPorts_channels (v : Ports) : (s.setPorts v).channels = s.channels := rfl
@[simp] theorem State.setPorts_loader (v : Ports) : (s.setPorts v).loader = s.loader := rfl
@[simp] theorem State.setPorts_flash (v : Ports) : (s.setPorts v).flash = s.flash := rfl

@[simp] theorem State.setFilter_pending (v : Recognition) : (s.setFilter v).pending = s.pending := rfl
@[simp] theorem State.setFilter_free (v : Recognition) : (s.setFilter v).free = s.free := rfl
@[simp] theorem State.setFilter_lineTime (v : Recognition) : (s.setFilter v).lineTime = s.lineTime := rfl
@[simp] theorem State.setFilter_ports (v : Recognition) : (s.setFilter v).ports = s.ports := rfl
@[simp] theorem State.setFilter_filter (v : Recognition) : (s.setFilter v).filter = v := rfl
@[simp] theorem State.setFilter_tracker (v : Recognition) : (s.setFilter v).tracker = s.tracker := rfl
@[simp] theorem State.setFilter_banks (v : Recognition) : (s.setFilter v).banks = s.banks := rfl
@[simp] theorem State.setFilter_resolver (v : Recognition) : (s.setFilter v).resolver = s.resolver := rfl
@[simp] theorem State.setFilter_guns (v : Recognition) : (s.setFilter v).guns = s.guns := rfl
@[simp] theorem State.setFilter_tags (v : Recognition) : (s.setFilter v).tags = s.tags := rfl
@[simp] theorem State.setFilter_holdScope (v : Recognition) : (s.setFilter v).holdScope = s.holdScope := rfl
@[simp] theorem State.setFilter_agent (v : Recognition) : (s.setFilter v).agent = s.agent := rfl
@[simp] theorem State.setFilter_events (v : Recognition) : (s.setFilter v).events = s.events := rfl
@[simp] theorem State.setFilter_channels (v : Recognition) : (s.setFilter v).channels = s.channels := rfl
@[simp] theorem State.setFilter_loader (v : Recognition) : (s.setFilter v).loader = s.loader := rfl
@[simp] theorem State.setFilter_flash (v : Recognition) : (s.setFilter v).flash = s.flash := rfl

@[simp] theorem State.setTracker_pending (v : Tracker) : (s.setTracker v).pending = s.pending := rfl
@[simp] theorem State.setTracker_free (v : Tracker) : (s.setTracker v).free = s.free := rfl
@[simp] theorem State.setTracker_lineTime (v : Tracker) : (s.setTracker v).lineTime = s.lineTime := rfl
@[simp] theorem State.setTracker_ports (v : Tracker) : (s.setTracker v).ports = s.ports := rfl
@[simp] theorem State.setTracker_filter (v : Tracker) : (s.setTracker v).filter = s.filter := rfl
@[simp] theorem State.setTracker_tracker (v : Tracker) : (s.setTracker v).tracker = v := rfl
@[simp] theorem State.setTracker_banks (v : Tracker) : (s.setTracker v).banks = s.banks := rfl
@[simp] theorem State.setTracker_resolver (v : Tracker) : (s.setTracker v).resolver = s.resolver := rfl
@[simp] theorem State.setTracker_guns (v : Tracker) : (s.setTracker v).guns = s.guns := rfl
@[simp] theorem State.setTracker_tags (v : Tracker) : (s.setTracker v).tags = s.tags := rfl
@[simp] theorem State.setTracker_holdScope (v : Tracker) : (s.setTracker v).holdScope = s.holdScope := rfl
@[simp] theorem State.setTracker_agent (v : Tracker) : (s.setTracker v).agent = s.agent := rfl
@[simp] theorem State.setTracker_events (v : Tracker) : (s.setTracker v).events = s.events := rfl
@[simp] theorem State.setTracker_channels (v : Tracker) : (s.setTracker v).channels = s.channels := rfl
@[simp] theorem State.setTracker_loader (v : Tracker) : (s.setTracker v).loader = s.loader := rfl
@[simp] theorem State.setTracker_flash (v : Tracker) : (s.setTracker v).flash = s.flash := rfl

@[simp] theorem State.setBanks_pending (v : Banks) : (s.setBanks v).pending = s.pending := rfl
@[simp] theorem State.setBanks_free (v : Banks) : (s.setBanks v).free = s.free := rfl
@[simp] theorem State.setBanks_lineTime (v : Banks) : (s.setBanks v).lineTime = s.lineTime := rfl
@[simp] theorem State.setBanks_ports (v : Banks) : (s.setBanks v).ports = s.ports := rfl
@[simp] theorem State.setBanks_filter (v : Banks) : (s.setBanks v).filter = s.filter := rfl
@[simp] theorem State.setBanks_tracker (v : Banks) : (s.setBanks v).tracker = s.tracker := rfl
@[simp] theorem State.setBanks_banks (v : Banks) : (s.setBanks v).banks = v := rfl
@[simp] theorem State.setBanks_resolver (v : Banks) : (s.setBanks v).resolver = s.resolver := rfl
@[simp] theorem State.setBanks_guns (v : Banks) : (s.setBanks v).guns = s.guns := rfl
@[simp] theorem State.setBanks_tags (v : Banks) : (s.setBanks v).tags = s.tags := rfl
@[simp] theorem State.setBanks_holdScope (v : Banks) : (s.setBanks v).holdScope = s.holdScope := rfl
@[simp] theorem State.setBanks_agent (v : Banks) : (s.setBanks v).agent = s.agent := rfl
@[simp] theorem State.setBanks_events (v : Banks) : (s.setBanks v).events = s.events := rfl
@[simp] theorem State.setBanks_channels (v : Banks) : (s.setBanks v).channels = s.channels := rfl
@[simp] theorem State.setBanks_loader (v : Banks) : (s.setBanks v).loader = s.loader := rfl
@[simp] theorem State.setBanks_flash (v : Banks) : (s.setBanks v).flash = s.flash := rfl

@[simp] theorem State.setResolver_pending (v : Resolver) : (s.setResolver v).pending = s.pending := rfl
@[simp] theorem State.setResolver_free (v : Resolver) : (s.setResolver v).free = s.free := rfl
@[simp] theorem State.setResolver_lineTime (v : Resolver) : (s.setResolver v).lineTime = s.lineTime := rfl
@[simp] theorem State.setResolver_ports (v : Resolver) : (s.setResolver v).ports = s.ports := rfl
@[simp] theorem State.setResolver_filter (v : Resolver) : (s.setResolver v).filter = s.filter := rfl
@[simp] theorem State.setResolver_tracker (v : Resolver) : (s.setResolver v).tracker = s.tracker := rfl
@[simp] theorem State.setResolver_banks (v : Resolver) : (s.setResolver v).banks = s.banks := rfl
@[simp] theorem State.setResolver_resolver (v : Resolver) : (s.setResolver v).resolver = v := rfl
@[simp] theorem State.setResolver_guns (v : Resolver) : (s.setResolver v).guns = s.guns := rfl
@[simp] theorem State.setResolver_tags (v : Resolver) : (s.setResolver v).tags = s.tags := rfl
@[simp] theorem State.setResolver_holdScope (v : Resolver) : (s.setResolver v).holdScope = s.holdScope := rfl
@[simp] theorem State.setResolver_agent (v : Resolver) : (s.setResolver v).agent = s.agent := rfl
@[simp] theorem State.setResolver_events (v : Resolver) : (s.setResolver v).events = s.events := rfl
@[simp] theorem State.setResolver_channels (v : Resolver) : (s.setResolver v).channels = s.channels := rfl
@[simp] theorem State.setResolver_loader (v : Resolver) : (s.setResolver v).loader = s.loader := rfl
@[simp] theorem State.setResolver_flash (v : Resolver) : (s.setResolver v).flash = s.flash := rfl

@[simp] theorem State.setGuns_pending (v : Vector Gun 32) : (s.setGuns v).pending = s.pending := rfl
@[simp] theorem State.setGuns_free (v : Vector Gun 32) : (s.setGuns v).free = s.free := rfl
@[simp] theorem State.setGuns_lineTime (v : Vector Gun 32) : (s.setGuns v).lineTime = s.lineTime := rfl
@[simp] theorem State.setGuns_ports (v : Vector Gun 32) : (s.setGuns v).ports = s.ports := rfl
@[simp] theorem State.setGuns_filter (v : Vector Gun 32) : (s.setGuns v).filter = s.filter := rfl
@[simp] theorem State.setGuns_tracker (v : Vector Gun 32) : (s.setGuns v).tracker = s.tracker := rfl
@[simp] theorem State.setGuns_banks (v : Vector Gun 32) : (s.setGuns v).banks = s.banks := rfl
@[simp] theorem State.setGuns_resolver (v : Vector Gun 32) : (s.setGuns v).resolver = s.resolver := rfl
@[simp] theorem State.setGuns_guns (v : Vector Gun 32) : (s.setGuns v).guns = v := rfl
@[simp] theorem State.setGuns_tags (v : Vector Gun 32) : (s.setGuns v).tags = s.tags := rfl
@[simp] theorem State.setGuns_holdScope (v : Vector Gun 32) : (s.setGuns v).holdScope = s.holdScope := rfl
@[simp] theorem State.setGuns_agent (v : Vector Gun 32) : (s.setGuns v).agent = s.agent := rfl
@[simp] theorem State.setGuns_events (v : Vector Gun 32) : (s.setGuns v).events = s.events := rfl
@[simp] theorem State.setGuns_channels (v : Vector Gun 32) : (s.setGuns v).channels = s.channels := rfl
@[simp] theorem State.setGuns_loader (v : Vector Gun 32) : (s.setGuns v).loader = s.loader := rfl
@[simp] theorem State.setGuns_flash (v : Vector Gun 32) : (s.setGuns v).flash = s.flash := rfl

@[simp] theorem State.setTags_pending (v : Vector TagState 32) : (s.setTags v).pending = s.pending := rfl
@[simp] theorem State.setTags_free (v : Vector TagState 32) : (s.setTags v).free = s.free := rfl
@[simp] theorem State.setTags_lineTime (v : Vector TagState 32) : (s.setTags v).lineTime = s.lineTime := rfl
@[simp] theorem State.setTags_ports (v : Vector TagState 32) : (s.setTags v).ports = s.ports := rfl
@[simp] theorem State.setTags_filter (v : Vector TagState 32) : (s.setTags v).filter = s.filter := rfl
@[simp] theorem State.setTags_tracker (v : Vector TagState 32) : (s.setTags v).tracker = s.tracker := rfl
@[simp] theorem State.setTags_banks (v : Vector TagState 32) : (s.setTags v).banks = s.banks := rfl
@[simp] theorem State.setTags_resolver (v : Vector TagState 32) : (s.setTags v).resolver = s.resolver := rfl
@[simp] theorem State.setTags_guns (v : Vector TagState 32) : (s.setTags v).guns = s.guns := rfl
@[simp] theorem State.setTags_tags (v : Vector TagState 32) : (s.setTags v).tags = v := rfl
@[simp] theorem State.setTags_holdScope (v : Vector TagState 32) : (s.setTags v).holdScope = s.holdScope := rfl
@[simp] theorem State.setTags_agent (v : Vector TagState 32) : (s.setTags v).agent = s.agent := rfl
@[simp] theorem State.setTags_events (v : Vector TagState 32) : (s.setTags v).events = s.events := rfl
@[simp] theorem State.setTags_channels (v : Vector TagState 32) : (s.setTags v).channels = s.channels := rfl
@[simp] theorem State.setTags_loader (v : Vector TagState 32) : (s.setTags v).loader = s.loader := rfl
@[simp] theorem State.setTags_flash (v : Vector TagState 32) : (s.setTags v).flash = s.flash := rfl

@[simp] theorem State.setScope_pending (v : HoldScope) : (s.setScope v).pending = s.pending := rfl
@[simp] theorem State.setScope_free (v : HoldScope) : (s.setScope v).free = s.free := rfl
@[simp] theorem State.setScope_lineTime (v : HoldScope) : (s.setScope v).lineTime = s.lineTime := rfl
@[simp] theorem State.setScope_ports (v : HoldScope) : (s.setScope v).ports = s.ports := rfl
@[simp] theorem State.setScope_filter (v : HoldScope) : (s.setScope v).filter = s.filter := rfl
@[simp] theorem State.setScope_tracker (v : HoldScope) : (s.setScope v).tracker = s.tracker := rfl
@[simp] theorem State.setScope_banks (v : HoldScope) : (s.setScope v).banks = s.banks := rfl
@[simp] theorem State.setScope_resolver (v : HoldScope) : (s.setScope v).resolver = s.resolver := rfl
@[simp] theorem State.setScope_guns (v : HoldScope) : (s.setScope v).guns = s.guns := rfl
@[simp] theorem State.setScope_tags (v : HoldScope) : (s.setScope v).tags = s.tags := rfl
@[simp] theorem State.setScope_holdScope (v : HoldScope) : (s.setScope v).holdScope = v := rfl
@[simp] theorem State.setScope_agent (v : HoldScope) : (s.setScope v).agent = s.agent := rfl
@[simp] theorem State.setScope_events (v : HoldScope) : (s.setScope v).events = s.events := rfl
@[simp] theorem State.setScope_channels (v : HoldScope) : (s.setScope v).channels = s.channels := rfl
@[simp] theorem State.setScope_loader (v : HoldScope) : (s.setScope v).loader = s.loader := rfl
@[simp] theorem State.setScope_flash (v : HoldScope) : (s.setScope v).flash = s.flash := rfl

@[simp] theorem State.setAgent_pending (v : Agent) : (s.setAgent v).pending = s.pending := rfl
@[simp] theorem State.setAgent_free (v : Agent) : (s.setAgent v).free = s.free := rfl
@[simp] theorem State.setAgent_lineTime (v : Agent) : (s.setAgent v).lineTime = s.lineTime := rfl
@[simp] theorem State.setAgent_ports (v : Agent) : (s.setAgent v).ports = s.ports := rfl
@[simp] theorem State.setAgent_filter (v : Agent) : (s.setAgent v).filter = s.filter := rfl
@[simp] theorem State.setAgent_tracker (v : Agent) : (s.setAgent v).tracker = s.tracker := rfl
@[simp] theorem State.setAgent_banks (v : Agent) : (s.setAgent v).banks = s.banks := rfl
@[simp] theorem State.setAgent_resolver (v : Agent) : (s.setAgent v).resolver = s.resolver := rfl
@[simp] theorem State.setAgent_guns (v : Agent) : (s.setAgent v).guns = s.guns := rfl
@[simp] theorem State.setAgent_tags (v : Agent) : (s.setAgent v).tags = s.tags := rfl
@[simp] theorem State.setAgent_holdScope (v : Agent) : (s.setAgent v).holdScope = s.holdScope := rfl
@[simp] theorem State.setAgent_agent (v : Agent) : (s.setAgent v).agent = v := rfl
@[simp] theorem State.setAgent_events (v : Agent) : (s.setAgent v).events = s.events := rfl
@[simp] theorem State.setAgent_channels (v : Agent) : (s.setAgent v).channels = s.channels := rfl
@[simp] theorem State.setAgent_loader (v : Agent) : (s.setAgent v).loader = s.loader := rfl
@[simp] theorem State.setAgent_flash (v : Agent) : (s.setAgent v).flash = s.flash := rfl

@[simp] theorem State.setEvents_pending (v : Events) : (s.setEvents v).pending = s.pending := rfl
@[simp] theorem State.setEvents_free (v : Events) : (s.setEvents v).free = s.free := rfl
@[simp] theorem State.setEvents_lineTime (v : Events) : (s.setEvents v).lineTime = s.lineTime := rfl
@[simp] theorem State.setEvents_ports (v : Events) : (s.setEvents v).ports = s.ports := rfl
@[simp] theorem State.setEvents_filter (v : Events) : (s.setEvents v).filter = s.filter := rfl
@[simp] theorem State.setEvents_tracker (v : Events) : (s.setEvents v).tracker = s.tracker := rfl
@[simp] theorem State.setEvents_banks (v : Events) : (s.setEvents v).banks = s.banks := rfl
@[simp] theorem State.setEvents_resolver (v : Events) : (s.setEvents v).resolver = s.resolver := rfl
@[simp] theorem State.setEvents_guns (v : Events) : (s.setEvents v).guns = s.guns := rfl
@[simp] theorem State.setEvents_tags (v : Events) : (s.setEvents v).tags = s.tags := rfl
@[simp] theorem State.setEvents_holdScope (v : Events) : (s.setEvents v).holdScope = s.holdScope := rfl
@[simp] theorem State.setEvents_agent (v : Events) : (s.setEvents v).agent = s.agent := rfl
@[simp] theorem State.setEvents_events (v : Events) : (s.setEvents v).events = v := rfl
@[simp] theorem State.setEvents_channels (v : Events) : (s.setEvents v).channels = s.channels := rfl
@[simp] theorem State.setEvents_loader (v : Events) : (s.setEvents v).loader = s.loader := rfl
@[simp] theorem State.setEvents_flash (v : Events) : (s.setEvents v).flash = s.flash := rfl

@[simp] theorem State.setChannels_pending (v : Vector Channel 8) : (s.setChannels v).pending = s.pending := rfl
@[simp] theorem State.setChannels_free (v : Vector Channel 8) : (s.setChannels v).free = s.free := rfl
@[simp] theorem State.setChannels_lineTime (v : Vector Channel 8) : (s.setChannels v).lineTime = s.lineTime := rfl
@[simp] theorem State.setChannels_ports (v : Vector Channel 8) : (s.setChannels v).ports = s.ports := rfl
@[simp] theorem State.setChannels_filter (v : Vector Channel 8) : (s.setChannels v).filter = s.filter := rfl
@[simp] theorem State.setChannels_tracker (v : Vector Channel 8) : (s.setChannels v).tracker = s.tracker := rfl
@[simp] theorem State.setChannels_banks (v : Vector Channel 8) : (s.setChannels v).banks = s.banks := rfl
@[simp] theorem State.setChannels_resolver (v : Vector Channel 8) : (s.setChannels v).resolver = s.resolver := rfl
@[simp] theorem State.setChannels_guns (v : Vector Channel 8) : (s.setChannels v).guns = s.guns := rfl
@[simp] theorem State.setChannels_tags (v : Vector Channel 8) : (s.setChannels v).tags = s.tags := rfl
@[simp] theorem State.setChannels_holdScope (v : Vector Channel 8) : (s.setChannels v).holdScope = s.holdScope := rfl
@[simp] theorem State.setChannels_agent (v : Vector Channel 8) : (s.setChannels v).agent = s.agent := rfl
@[simp] theorem State.setChannels_events (v : Vector Channel 8) : (s.setChannels v).events = s.events := rfl
@[simp] theorem State.setChannels_channels (v : Vector Channel 8) : (s.setChannels v).channels = v := rfl
@[simp] theorem State.setChannels_loader (v : Vector Channel 8) : (s.setChannels v).loader = s.loader := rfl
@[simp] theorem State.setChannels_flash (v : Vector Channel 8) : (s.setChannels v).flash = s.flash := rfl

@[simp] theorem State.setLoader_pending (v : Loader) : (s.setLoader v).pending = s.pending := rfl
@[simp] theorem State.setLoader_free (v : Loader) : (s.setLoader v).free = s.free := rfl
@[simp] theorem State.setLoader_lineTime (v : Loader) : (s.setLoader v).lineTime = s.lineTime := rfl
@[simp] theorem State.setLoader_ports (v : Loader) : (s.setLoader v).ports = s.ports := rfl
@[simp] theorem State.setLoader_filter (v : Loader) : (s.setLoader v).filter = s.filter := rfl
@[simp] theorem State.setLoader_tracker (v : Loader) : (s.setLoader v).tracker = s.tracker := rfl
@[simp] theorem State.setLoader_banks (v : Loader) : (s.setLoader v).banks = s.banks := rfl
@[simp] theorem State.setLoader_resolver (v : Loader) : (s.setLoader v).resolver = s.resolver := rfl
@[simp] theorem State.setLoader_guns (v : Loader) : (s.setLoader v).guns = s.guns := rfl
@[simp] theorem State.setLoader_tags (v : Loader) : (s.setLoader v).tags = s.tags := rfl
@[simp] theorem State.setLoader_holdScope (v : Loader) : (s.setLoader v).holdScope = s.holdScope := rfl
@[simp] theorem State.setLoader_agent (v : Loader) : (s.setLoader v).agent = s.agent := rfl
@[simp] theorem State.setLoader_events (v : Loader) : (s.setLoader v).events = s.events := rfl
@[simp] theorem State.setLoader_channels (v : Loader) : (s.setLoader v).channels = s.channels := rfl
@[simp] theorem State.setLoader_loader (v : Loader) : (s.setLoader v).loader = v := rfl
@[simp] theorem State.setLoader_flash (v : Loader) : (s.setLoader v).flash = s.flash := rfl

@[simp] theorem State.setFlash_pending (v : List Octet) : (s.setFlash v).pending = s.pending := rfl
@[simp] theorem State.setFlash_free (v : List Octet) : (s.setFlash v).free = s.free := rfl
@[simp] theorem State.setFlash_lineTime (v : List Octet) : (s.setFlash v).lineTime = s.lineTime := rfl
@[simp] theorem State.setFlash_ports (v : List Octet) : (s.setFlash v).ports = s.ports := rfl
@[simp] theorem State.setFlash_filter (v : List Octet) : (s.setFlash v).filter = s.filter := rfl
@[simp] theorem State.setFlash_tracker (v : List Octet) : (s.setFlash v).tracker = s.tracker := rfl
@[simp] theorem State.setFlash_banks (v : List Octet) : (s.setFlash v).banks = s.banks := rfl
@[simp] theorem State.setFlash_resolver (v : List Octet) : (s.setFlash v).resolver = s.resolver := rfl
@[simp] theorem State.setFlash_guns (v : List Octet) : (s.setFlash v).guns = s.guns := rfl
@[simp] theorem State.setFlash_tags (v : List Octet) : (s.setFlash v).tags = s.tags := rfl
@[simp] theorem State.setFlash_holdScope (v : List Octet) : (s.setFlash v).holdScope = s.holdScope := rfl
@[simp] theorem State.setFlash_agent (v : List Octet) : (s.setFlash v).agent = s.agent := rfl
@[simp] theorem State.setFlash_events (v : List Octet) : (s.setFlash v).events = s.events := rfl
@[simp] theorem State.setFlash_channels (v : List Octet) : (s.setFlash v).channels = s.channels := rfl
@[simp] theorem State.setFlash_loader (v : List Octet) : (s.setFlash v).loader = s.loader := rfl
@[simp] theorem State.setFlash_flash (v : List Octet) : (s.setFlash v).flash = v := rfl

@[simp] theorem State.setFree_pending (v : Nat) : (s.setFree v).pending = s.pending := rfl
@[simp] theorem State.setFree_free (v : Nat) : (s.setFree v).free = v := rfl
@[simp] theorem State.setFree_lineTime (v : Nat) : (s.setFree v).lineTime = s.lineTime := rfl
@[simp] theorem State.setFree_ports (v : Nat) : (s.setFree v).ports = s.ports := rfl
@[simp] theorem State.setFree_filter (v : Nat) : (s.setFree v).filter = s.filter := rfl
@[simp] theorem State.setFree_tracker (v : Nat) : (s.setFree v).tracker = s.tracker := rfl
@[simp] theorem State.setFree_banks (v : Nat) : (s.setFree v).banks = s.banks := rfl
@[simp] theorem State.setFree_resolver (v : Nat) : (s.setFree v).resolver = s.resolver := rfl
@[simp] theorem State.setFree_guns (v : Nat) : (s.setFree v).guns = s.guns := rfl
@[simp] theorem State.setFree_tags (v : Nat) : (s.setFree v).tags = s.tags := rfl
@[simp] theorem State.setFree_holdScope (v : Nat) : (s.setFree v).holdScope = s.holdScope := rfl
@[simp] theorem State.setFree_agent (v : Nat) : (s.setFree v).agent = s.agent := rfl
@[simp] theorem State.setFree_events (v : Nat) : (s.setFree v).events = s.events := rfl
@[simp] theorem State.setFree_channels (v : Nat) : (s.setFree v).channels = s.channels := rfl
@[simp] theorem State.setFree_loader (v : Nat) : (s.setFree v).loader = s.loader := rfl
@[simp] theorem State.setFree_flash (v : Nat) : (s.setFree v).flash = s.flash := rfl

@[simp] theorem State.setLineTime_pending (v : LineTime) : (s.setLineTime v).pending = s.pending := rfl
@[simp] theorem State.setLineTime_free (v : LineTime) : (s.setLineTime v).free = s.free := rfl
@[simp] theorem State.setLineTime_lineTime (v : LineTime) : (s.setLineTime v).lineTime = v := rfl
@[simp] theorem State.setLineTime_ports (v : LineTime) : (s.setLineTime v).ports = s.ports := rfl
@[simp] theorem State.setLineTime_filter (v : LineTime) : (s.setLineTime v).filter = s.filter := rfl
@[simp] theorem State.setLineTime_tracker (v : LineTime) : (s.setLineTime v).tracker = s.tracker := rfl
@[simp] theorem State.setLineTime_banks (v : LineTime) : (s.setLineTime v).banks = s.banks := rfl
@[simp] theorem State.setLineTime_resolver (v : LineTime) : (s.setLineTime v).resolver = s.resolver := rfl
@[simp] theorem State.setLineTime_guns (v : LineTime) : (s.setLineTime v).guns = s.guns := rfl
@[simp] theorem State.setLineTime_tags (v : LineTime) : (s.setLineTime v).tags = s.tags := rfl
@[simp] theorem State.setLineTime_holdScope (v : LineTime) : (s.setLineTime v).holdScope = s.holdScope := rfl
@[simp] theorem State.setLineTime_agent (v : LineTime) : (s.setLineTime v).agent = s.agent := rfl
@[simp] theorem State.setLineTime_events (v : LineTime) : (s.setLineTime v).events = s.events := rfl
@[simp] theorem State.setLineTime_channels (v : LineTime) : (s.setLineTime v).channels = s.channels := rfl
@[simp] theorem State.setLineTime_loader (v : LineTime) : (s.setLineTime v).loader = s.loader := rfl
@[simp] theorem State.setLineTime_flash (v : LineTime) : (s.setLineTime v).flash = s.flash := rfl

@[simp] theorem State.withPending_pending (v : List Instr) : (s.withPending v).pending = v := rfl
@[simp] theorem State.withPending_free (v : List Instr) : (s.withPending v).free = s.free := rfl
@[simp] theorem State.withPending_lineTime (v : List Instr) : (s.withPending v).lineTime = s.lineTime := rfl
@[simp] theorem State.withPending_ports (v : List Instr) : (s.withPending v).ports = s.ports := rfl
@[simp] theorem State.withPending_filter (v : List Instr) : (s.withPending v).filter = s.filter := rfl
@[simp] theorem State.withPending_tracker (v : List Instr) : (s.withPending v).tracker = s.tracker := rfl
@[simp] theorem State.withPending_banks (v : List Instr) : (s.withPending v).banks = s.banks := rfl
@[simp] theorem State.withPending_resolver (v : List Instr) : (s.withPending v).resolver = s.resolver := rfl
@[simp] theorem State.withPending_guns (v : List Instr) : (s.withPending v).guns = s.guns := rfl
@[simp] theorem State.withPending_tags (v : List Instr) : (s.withPending v).tags = s.tags := rfl
@[simp] theorem State.withPending_holdScope (v : List Instr) : (s.withPending v).holdScope = s.holdScope := rfl
@[simp] theorem State.withPending_agent (v : List Instr) : (s.withPending v).agent = s.agent := rfl
@[simp] theorem State.withPending_events (v : List Instr) : (s.withPending v).events = s.events := rfl
@[simp] theorem State.withPending_channels (v : List Instr) : (s.withPending v).channels = s.channels := rfl
@[simp] theorem State.withPending_loader (v : List Instr) : (s.withPending v).loader = s.loader := rfl
@[simp] theorem State.withPending_flash (v : List Instr) : (s.withPending v).flash = s.flash := rfl

end Blocks

section Parts

variable (s : State)

@[simp] theorem State.setStation_pending (st : StationId) (x : Station) : (s.setStation st x).pending =
    s.pending := rfl
@[simp] theorem State.setStation_free (st : StationId) (x : Station) : (s.setStation st x).free = s.free := rfl
@[simp] theorem State.setStation_lineTime (st : StationId) (x : Station) : (s.setStation st x).lineTime =
    s.lineTime := rfl
@[simp] theorem State.setStation_ports (st : StationId) (x : Station) : (s.setStation st x).ports = s.ports := rfl
@[simp] theorem State.setStation_filter (st : StationId) (x : Station) : (s.setStation st x).filter = s.filter := rfl
@[simp] theorem State.setStation_tracker (st : StationId) (x : Station) : (s.setStation st x).tracker =
    { s.tracker with stations := s.tracker.stations.set st x } := rfl
@[simp] theorem State.setStation_banks (st : StationId) (x : Station) : (s.setStation st x).banks = s.banks := rfl
@[simp] theorem State.setStation_resolver (st : StationId) (x : Station) : (s.setStation st x).resolver =
    s.resolver := rfl
@[simp] theorem State.setStation_guns (st : StationId) (x : Station) : (s.setStation st x).guns = s.guns := rfl
@[simp] theorem State.setStation_tags (st : StationId) (x : Station) : (s.setStation st x).tags = s.tags := rfl
@[simp] theorem State.setStation_holdScope (st : StationId) (x : Station) : (s.setStation st x).holdScope =
    s.holdScope := rfl
@[simp] theorem State.setStation_agent (st : StationId) (x : Station) : (s.setStation st x).agent = s.agent := rfl
@[simp] theorem State.setStation_events (st : StationId) (x : Station) : (s.setStation st x).events = s.events := rfl
@[simp] theorem State.setStation_channels (st : StationId) (x : Station) : (s.setStation st x).channels =
    s.channels := rfl
@[simp] theorem State.setStation_loader (st : StationId) (x : Station) : (s.setStation st x).loader = s.loader := rfl
@[simp] theorem State.setStation_flash (st : StationId) (x : Station) : (s.setStation st x).flash = s.flash := rfl

@[simp] theorem State.setStationState_pending (st : StationId) (x : StationState) : (s.setStationState st x).pending =
    s.pending := rfl
@[simp] theorem State.setStationState_free (st : StationId) (x : StationState) : (s.setStationState st x).free =
    s.free := rfl
@[simp] theorem State.setStationState_lineTime (st : StationId) (x : StationState) : (s.setStationState st x).lineTime =
    s.lineTime := rfl
@[simp] theorem State.setStationState_ports (st : StationId) (x : StationState) : (s.setStationState st x).ports =
    s.ports := rfl
@[simp] theorem State.setStationState_filter (st : StationId) (x : StationState) : (s.setStationState st x).filter =
    s.filter := rfl
@[simp] theorem State.setStationState_tracker (st : StationId) (x : StationState) : (s.setStationState st x).tracker =
    { s.tracker with stations := s.tracker.stations.set st { s.station st with state := x } } := rfl
@[simp] theorem State.setStationState_banks (st : StationId) (x : StationState) : (s.setStationState st x).banks =
    s.banks := rfl
@[simp] theorem State.setStationState_resolver (st : StationId) (x : StationState) : (s.setStationState st x).resolver =
    s.resolver := rfl
@[simp] theorem State.setStationState_guns (st : StationId) (x : StationState) : (s.setStationState st x).guns =
    s.guns := rfl
@[simp] theorem State.setStationState_tags (st : StationId) (x : StationState) : (s.setStationState st x).tags =
    s.tags := rfl
@[simp] theorem State.setStationState_holdScope (st : StationId) (x : StationState) : (s.setStationState st x).holdScope =
    s.holdScope := rfl
@[simp] theorem State.setStationState_agent (st : StationId) (x : StationState) : (s.setStationState st x).agent =
    s.agent := rfl
@[simp] theorem State.setStationState_events (st : StationId) (x : StationState) : (s.setStationState st x).events =
    s.events := rfl
@[simp] theorem State.setStationState_channels (st : StationId) (x : StationState) : (s.setStationState st x).channels =
    s.channels := rfl
@[simp] theorem State.setStationState_loader (st : StationId) (x : StationState) : (s.setStationState st x).loader =
    s.loader := rfl
@[simp] theorem State.setStationState_flash (st : StationId) (x : StationState) : (s.setStationState st x).flash =
    s.flash := rfl

@[simp] theorem State.setGun_pending (g : SlotId) (x : Gun) : (s.setGun g x).pending = s.pending := rfl
@[simp] theorem State.setGun_free (g : SlotId) (x : Gun) : (s.setGun g x).free = s.free := rfl
@[simp] theorem State.setGun_lineTime (g : SlotId) (x : Gun) : (s.setGun g x).lineTime = s.lineTime := rfl
@[simp] theorem State.setGun_ports (g : SlotId) (x : Gun) : (s.setGun g x).ports = s.ports := rfl
@[simp] theorem State.setGun_filter (g : SlotId) (x : Gun) : (s.setGun g x).filter = s.filter := rfl
@[simp] theorem State.setGun_tracker (g : SlotId) (x : Gun) : (s.setGun g x).tracker = s.tracker := rfl
@[simp] theorem State.setGun_banks (g : SlotId) (x : Gun) : (s.setGun g x).banks = s.banks := rfl
@[simp] theorem State.setGun_resolver (g : SlotId) (x : Gun) : (s.setGun g x).resolver = s.resolver := rfl
@[simp] theorem State.setGun_guns (g : SlotId) (x : Gun) : (s.setGun g x).guns = s.guns.set g x := rfl
@[simp] theorem State.setGun_tags (g : SlotId) (x : Gun) : (s.setGun g x).tags = s.tags := rfl
@[simp] theorem State.setGun_holdScope (g : SlotId) (x : Gun) : (s.setGun g x).holdScope = s.holdScope := rfl
@[simp] theorem State.setGun_agent (g : SlotId) (x : Gun) : (s.setGun g x).agent = s.agent := rfl
@[simp] theorem State.setGun_events (g : SlotId) (x : Gun) : (s.setGun g x).events = s.events := rfl
@[simp] theorem State.setGun_channels (g : SlotId) (x : Gun) : (s.setGun g x).channels = s.channels := rfl
@[simp] theorem State.setGun_loader (g : SlotId) (x : Gun) : (s.setGun g x).loader = s.loader := rfl
@[simp] theorem State.setGun_flash (g : SlotId) (x : Gun) : (s.setGun g x).flash = s.flash := rfl

@[simp] theorem State.setTag_pending (g : SlotId) (x : TagState) : (s.setTag g x).pending = s.pending := rfl
@[simp] theorem State.setTag_free (g : SlotId) (x : TagState) : (s.setTag g x).free = s.free := rfl
@[simp] theorem State.setTag_lineTime (g : SlotId) (x : TagState) : (s.setTag g x).lineTime = s.lineTime := rfl
@[simp] theorem State.setTag_ports (g : SlotId) (x : TagState) : (s.setTag g x).ports = s.ports := rfl
@[simp] theorem State.setTag_filter (g : SlotId) (x : TagState) : (s.setTag g x).filter = s.filter := rfl
@[simp] theorem State.setTag_tracker (g : SlotId) (x : TagState) : (s.setTag g x).tracker = s.tracker := rfl
@[simp] theorem State.setTag_banks (g : SlotId) (x : TagState) : (s.setTag g x).banks = s.banks := rfl
@[simp] theorem State.setTag_resolver (g : SlotId) (x : TagState) : (s.setTag g x).resolver = s.resolver := rfl
@[simp] theorem State.setTag_guns (g : SlotId) (x : TagState) : (s.setTag g x).guns = s.guns := rfl
@[simp] theorem State.setTag_tags (g : SlotId) (x : TagState) : (s.setTag g x).tags = s.tags.set g x := rfl
@[simp] theorem State.setTag_holdScope (g : SlotId) (x : TagState) : (s.setTag g x).holdScope = s.holdScope := rfl
@[simp] theorem State.setTag_agent (g : SlotId) (x : TagState) : (s.setTag g x).agent = s.agent := rfl
@[simp] theorem State.setTag_events (g : SlotId) (x : TagState) : (s.setTag g x).events = s.events := rfl
@[simp] theorem State.setTag_channels (g : SlotId) (x : TagState) : (s.setTag g x).channels = s.channels := rfl
@[simp] theorem State.setTag_loader (g : SlotId) (x : TagState) : (s.setTag g x).loader = s.loader := rfl
@[simp] theorem State.setTag_flash (g : SlotId) (x : TagState) : (s.setTag g x).flash = s.flash := rfl

@[simp] theorem State.setChannel_pending (c : ChannelId) (x : Channel) : (s.setChannel c x).pending = s.pending := rfl
@[simp] theorem State.setChannel_free (c : ChannelId) (x : Channel) : (s.setChannel c x).free = s.free := rfl
@[simp] theorem State.setChannel_lineTime (c : ChannelId) (x : Channel) : (s.setChannel c x).lineTime =
    s.lineTime := rfl
@[simp] theorem State.setChannel_ports (c : ChannelId) (x : Channel) : (s.setChannel c x).ports = s.ports := rfl
@[simp] theorem State.setChannel_filter (c : ChannelId) (x : Channel) : (s.setChannel c x).filter = s.filter := rfl
@[simp] theorem State.setChannel_tracker (c : ChannelId) (x : Channel) : (s.setChannel c x).tracker = s.tracker := rfl
@[simp] theorem State.setChannel_banks (c : ChannelId) (x : Channel) : (s.setChannel c x).banks = s.banks := rfl
@[simp] theorem State.setChannel_resolver (c : ChannelId) (x : Channel) : (s.setChannel c x).resolver =
    s.resolver := rfl
@[simp] theorem State.setChannel_guns (c : ChannelId) (x : Channel) : (s.setChannel c x).guns = s.guns := rfl
@[simp] theorem State.setChannel_tags (c : ChannelId) (x : Channel) : (s.setChannel c x).tags = s.tags := rfl
@[simp] theorem State.setChannel_holdScope (c : ChannelId) (x : Channel) : (s.setChannel c x).holdScope =
    s.holdScope := rfl
@[simp] theorem State.setChannel_agent (c : ChannelId) (x : Channel) : (s.setChannel c x).agent = s.agent := rfl
@[simp] theorem State.setChannel_events (c : ChannelId) (x : Channel) : (s.setChannel c x).events = s.events := rfl
@[simp] theorem State.setChannel_channels (c : ChannelId) (x : Channel) : (s.setChannel c x).channels =
    s.channels.set c x := rfl
@[simp] theorem State.setChannel_loader (c : ChannelId) (x : Channel) : (s.setChannel c x).loader = s.loader := rfl
@[simp] theorem State.setChannel_flash (c : ChannelId) (x : Channel) : (s.setChannel c x).flash = s.flash := rfl

@[simp] theorem State.setFlag_pending (f : EventFlag) : (s.setFlag f).pending = s.pending := rfl
@[simp] theorem State.setFlag_free (f : EventFlag) : (s.setFlag f).free = s.free := rfl
@[simp] theorem State.setFlag_lineTime (f : EventFlag) : (s.setFlag f).lineTime = s.lineTime := rfl
@[simp] theorem State.setFlag_ports (f : EventFlag) : (s.setFlag f).ports = s.ports := rfl
@[simp] theorem State.setFlag_filter (f : EventFlag) : (s.setFlag f).filter = s.filter := rfl
@[simp] theorem State.setFlag_tracker (f : EventFlag) : (s.setFlag f).tracker = s.tracker := rfl
@[simp] theorem State.setFlag_banks (f : EventFlag) : (s.setFlag f).banks = s.banks := rfl
@[simp] theorem State.setFlag_resolver (f : EventFlag) : (s.setFlag f).resolver = s.resolver := rfl
@[simp] theorem State.setFlag_guns (f : EventFlag) : (s.setFlag f).guns = s.guns := rfl
@[simp] theorem State.setFlag_tags (f : EventFlag) : (s.setFlag f).tags = s.tags := rfl
@[simp] theorem State.setFlag_holdScope (f : EventFlag) : (s.setFlag f).holdScope = s.holdScope := rfl
@[simp] theorem State.setFlag_agent (f : EventFlag) : (s.setFlag f).agent = s.agent := rfl
@[simp] theorem State.setFlag_events (f : EventFlag) : (s.setFlag f).events =
    { s.events with flags := s.events.flags ||| (1#29 <<< f.index) } := rfl
@[simp] theorem State.setFlag_channels (f : EventFlag) : (s.setFlag f).channels = s.channels := rfl
@[simp] theorem State.setFlag_loader (f : EventFlag) : (s.setFlag f).loader = s.loader := rfl
@[simp] theorem State.setFlag_flash (f : EventFlag) : (s.setFlag f).flash = s.flash := rfl

@[simp] theorem State.setTables_pending (i : BankId) (t : Tables) : (s.setTables i t).pending = s.pending := rfl
@[simp] theorem State.setTables_free (i : BankId) (t : Tables) : (s.setTables i t).free = s.free := rfl
@[simp] theorem State.setTables_lineTime (i : BankId) (t : Tables) : (s.setTables i t).lineTime = s.lineTime := rfl
@[simp] theorem State.setTables_ports (i : BankId) (t : Tables) : (s.setTables i t).ports = s.ports := rfl
@[simp] theorem State.setTables_filter (i : BankId) (t : Tables) : (s.setTables i t).filter = s.filter := rfl
@[simp] theorem State.setTables_tracker (i : BankId) (t : Tables) : (s.setTables i t).tracker = s.tracker := rfl
@[simp] theorem State.setTables_banks (i : BankId) (t : Tables) : (s.setTables i t).banks =
    s.banks.setTables i t := rfl
@[simp] theorem State.setTables_resolver (i : BankId) (t : Tables) : (s.setTables i t).resolver = s.resolver := rfl
@[simp] theorem State.setTables_guns (i : BankId) (t : Tables) : (s.setTables i t).guns = s.guns := rfl
@[simp] theorem State.setTables_tags (i : BankId) (t : Tables) : (s.setTables i t).tags = s.tags := rfl
@[simp] theorem State.setTables_holdScope (i : BankId) (t : Tables) : (s.setTables i t).holdScope = s.holdScope := rfl
@[simp] theorem State.setTables_agent (i : BankId) (t : Tables) : (s.setTables i t).agent = s.agent := rfl
@[simp] theorem State.setTables_events (i : BankId) (t : Tables) : (s.setTables i t).events = s.events := rfl
@[simp] theorem State.setTables_channels (i : BankId) (t : Tables) : (s.setTables i t).channels = s.channels := rfl
@[simp] theorem State.setTables_loader (i : BankId) (t : Tables) : (s.setTables i t).loader = s.loader := rfl
@[simp] theorem State.setTables_flash (i : BankId) (t : Tables) : (s.setTables i t).flash = s.flash := rfl

@[simp] theorem State.takeSlot_pending (k : LongOpKind) : (s.takeSlot k).pending = s.pending := rfl
@[simp] theorem State.takeSlot_free (k : LongOpKind) : (s.takeSlot k).free = s.free := rfl
@[simp] theorem State.takeSlot_lineTime (k : LongOpKind) : (s.takeSlot k).lineTime = s.lineTime := rfl
@[simp] theorem State.takeSlot_ports (k : LongOpKind) : (s.takeSlot k).ports = s.ports := rfl
@[simp] theorem State.takeSlot_filter (k : LongOpKind) : (s.takeSlot k).filter = s.filter := rfl
@[simp] theorem State.takeSlot_tracker (k : LongOpKind) : (s.takeSlot k).tracker = s.tracker := rfl
@[simp] theorem State.takeSlot_banks (k : LongOpKind) : (s.takeSlot k).banks = s.banks := rfl
@[simp] theorem State.takeSlot_resolver (k : LongOpKind) : (s.takeSlot k).resolver = s.resolver := rfl
@[simp] theorem State.takeSlot_guns (k : LongOpKind) : (s.takeSlot k).guns = s.guns := rfl
@[simp] theorem State.takeSlot_tags (k : LongOpKind) : (s.takeSlot k).tags = s.tags := rfl
@[simp] theorem State.takeSlot_holdScope (k : LongOpKind) : (s.takeSlot k).holdScope = s.holdScope := rfl
@[simp] theorem State.takeSlot_agent (k : LongOpKind) : (s.takeSlot k).agent =
    { s.agent with longOp := some ⟨k, s.lineTime, 0⟩ } := rfl
@[simp] theorem State.takeSlot_events (k : LongOpKind) : (s.takeSlot k).events = s.events := rfl
@[simp] theorem State.takeSlot_channels (k : LongOpKind) : (s.takeSlot k).channels = s.channels := rfl
@[simp] theorem State.takeSlot_loader (k : LongOpKind) : (s.takeSlot k).loader = s.loader := rfl
@[simp] theorem State.takeSlot_flash (k : LongOpKind) : (s.takeSlot k).flash = s.flash := rfl

@[simp] theorem State.freeSlot_pending : (s.freeSlot).pending = s.pending := rfl
@[simp] theorem State.freeSlot_free : (s.freeSlot).free = s.free := rfl
@[simp] theorem State.freeSlot_lineTime : (s.freeSlot).lineTime = s.lineTime := rfl
@[simp] theorem State.freeSlot_ports : (s.freeSlot).ports = s.ports := rfl
@[simp] theorem State.freeSlot_filter : (s.freeSlot).filter = s.filter := rfl
@[simp] theorem State.freeSlot_tracker : (s.freeSlot).tracker = s.tracker := rfl
@[simp] theorem State.freeSlot_banks : (s.freeSlot).banks = s.banks := rfl
@[simp] theorem State.freeSlot_resolver : (s.freeSlot).resolver = s.resolver := rfl
@[simp] theorem State.freeSlot_guns : (s.freeSlot).guns = s.guns := rfl
@[simp] theorem State.freeSlot_tags : (s.freeSlot).tags = s.tags := rfl
@[simp] theorem State.freeSlot_holdScope : (s.freeSlot).holdScope = s.holdScope := rfl
@[simp] theorem State.freeSlot_agent : (s.freeSlot).agent = { s.agent with longOp := none } := rfl
@[simp] theorem State.freeSlot_events : (s.freeSlot).events = s.events := rfl
@[simp] theorem State.freeSlot_channels : (s.freeSlot).channels = s.channels := rfl
@[simp] theorem State.freeSlot_loader : (s.freeSlot).loader = s.loader := rfl
@[simp] theorem State.freeSlot_flash : (s.freeSlot).flash = s.flash := rfl

@[simp] theorem State.modifyHead_pending (st : StationId) (f : BodyRecord → BodyRecord) : (s.modifyHead st f).pending =
    s.pending := rfl
@[simp] theorem State.modifyHead_free (st : StationId) (f : BodyRecord → BodyRecord) : (s.modifyHead st f).free =
    s.free := rfl
@[simp] theorem State.modifyHead_lineTime (st : StationId) (f : BodyRecord → BodyRecord) : (s.modifyHead st f).lineTime =
    s.lineTime := rfl
@[simp] theorem State.modifyHead_ports (st : StationId) (f : BodyRecord → BodyRecord) : (s.modifyHead st f).ports =
    s.ports := rfl
@[simp] theorem State.modifyHead_filter (st : StationId) (f : BodyRecord → BodyRecord) : (s.modifyHead st f).filter =
    s.filter := rfl
@[simp] theorem State.modifyHead_tracker (st : StationId) (f : BodyRecord → BodyRecord) : (s.modifyHead st f).tracker =
    { s.tracker with stations := s.tracker.stations.set st ((s.station st).modifyHead f) } := rfl
@[simp] theorem State.modifyHead_banks (st : StationId) (f : BodyRecord → BodyRecord) : (s.modifyHead st f).banks =
    s.banks := rfl
@[simp] theorem State.modifyHead_resolver (st : StationId) (f : BodyRecord → BodyRecord) : (s.modifyHead st f).resolver =
    s.resolver := rfl
@[simp] theorem State.modifyHead_guns (st : StationId) (f : BodyRecord → BodyRecord) : (s.modifyHead st f).guns =
    s.guns := rfl
@[simp] theorem State.modifyHead_tags (st : StationId) (f : BodyRecord → BodyRecord) : (s.modifyHead st f).tags =
    s.tags := rfl
@[simp] theorem State.modifyHead_holdScope (st : StationId) (f : BodyRecord → BodyRecord) : (s.modifyHead st f).holdScope =
    s.holdScope := rfl
@[simp] theorem State.modifyHead_agent (st : StationId) (f : BodyRecord → BodyRecord) : (s.modifyHead st f).agent =
    s.agent := rfl
@[simp] theorem State.modifyHead_events (st : StationId) (f : BodyRecord → BodyRecord) : (s.modifyHead st f).events =
    s.events := rfl
@[simp] theorem State.modifyHead_channels (st : StationId) (f : BodyRecord → BodyRecord) : (s.modifyHead st f).channels =
    s.channels := rfl
@[simp] theorem State.modifyHead_loader (st : StationId) (f : BodyRecord → BodyRecord) : (s.modifyHead st f).loader =
    s.loader := rfl
@[simp] theorem State.modifyHead_flash (st : StationId) (f : BodyRecord → BodyRecord) : (s.modifyHead st f).flash =
    s.flash := rfl

@[simp] theorem State.modifyEntry_pending (g : SlotId) (f : SlotEntry → SlotEntry) : (s.modifyEntry g f).pending =
    s.pending := rfl
@[simp] theorem State.modifyEntry_free (g : SlotId) (f : SlotEntry → SlotEntry) : (s.modifyEntry g f).free =
    s.free := rfl
@[simp] theorem State.modifyEntry_lineTime (g : SlotId) (f : SlotEntry → SlotEntry) : (s.modifyEntry g f).lineTime =
    s.lineTime := rfl
@[simp] theorem State.modifyEntry_ports (g : SlotId) (f : SlotEntry → SlotEntry) : (s.modifyEntry g f).ports =
    s.ports := rfl
@[simp] theorem State.modifyEntry_filter (g : SlotId) (f : SlotEntry → SlotEntry) : (s.modifyEntry g f).filter =
    s.filter := rfl
@[simp] theorem State.modifyEntry_tracker (g : SlotId) (f : SlotEntry → SlotEntry) : (s.modifyEntry g f).tracker =
    { s.tracker with stations := s.tracker.stations.set (stationOf g) ((s.station (stationOf g)).modifyHead fun r => r.modifyEntry (positionOf g) f) } := rfl
@[simp] theorem State.modifyEntry_banks (g : SlotId) (f : SlotEntry → SlotEntry) : (s.modifyEntry g f).banks =
    s.banks := rfl
@[simp] theorem State.modifyEntry_resolver (g : SlotId) (f : SlotEntry → SlotEntry) : (s.modifyEntry g f).resolver =
    s.resolver := rfl
@[simp] theorem State.modifyEntry_guns (g : SlotId) (f : SlotEntry → SlotEntry) : (s.modifyEntry g f).guns =
    s.guns := rfl
@[simp] theorem State.modifyEntry_tags (g : SlotId) (f : SlotEntry → SlotEntry) : (s.modifyEntry g f).tags =
    s.tags := rfl
@[simp] theorem State.modifyEntry_holdScope (g : SlotId) (f : SlotEntry → SlotEntry) : (s.modifyEntry g f).holdScope =
    s.holdScope := rfl
@[simp] theorem State.modifyEntry_agent (g : SlotId) (f : SlotEntry → SlotEntry) : (s.modifyEntry g f).agent =
    s.agent := rfl
@[simp] theorem State.modifyEntry_events (g : SlotId) (f : SlotEntry → SlotEntry) : (s.modifyEntry g f).events =
    s.events := rfl
@[simp] theorem State.modifyEntry_channels (g : SlotId) (f : SlotEntry → SlotEntry) : (s.modifyEntry g f).channels =
    s.channels := rfl
@[simp] theorem State.modifyEntry_loader (g : SlotId) (f : SlotEntry → SlotEntry) : (s.modifyEntry g f).loader =
    s.loader := rfl
@[simp] theorem State.modifyEntry_flash (g : SlotId) (f : SlotEntry → SlotEntry) : (s.modifyEntry g f).flash =
    s.flash := rfl

@[simp] theorem State.dropCell_pending (g : SlotId) : (s.dropCell g).pending = s.pending := rfl
@[simp] theorem State.dropCell_free (g : SlotId) : (s.dropCell g).free = s.free := rfl
@[simp] theorem State.dropCell_lineTime (g : SlotId) : (s.dropCell g).lineTime = s.lineTime := rfl
@[simp] theorem State.dropCell_ports (g : SlotId) : (s.dropCell g).ports =
    { s.ports with cellOwn := s.ports.cellOwn.filter fun t => t.slot != g } := rfl
@[simp] theorem State.dropCell_filter (g : SlotId) : (s.dropCell g).filter = s.filter := rfl
@[simp] theorem State.dropCell_tracker (g : SlotId) : (s.dropCell g).tracker = s.tracker := rfl
@[simp] theorem State.dropCell_banks (g : SlotId) : (s.dropCell g).banks = s.banks := rfl
@[simp] theorem State.dropCell_resolver (g : SlotId) : (s.dropCell g).resolver = s.resolver := rfl
@[simp] theorem State.dropCell_guns (g : SlotId) : (s.dropCell g).guns = s.guns := rfl
@[simp] theorem State.dropCell_tags (g : SlotId) : (s.dropCell g).tags = s.tags := rfl
@[simp] theorem State.dropCell_holdScope (g : SlotId) : (s.dropCell g).holdScope = s.holdScope := rfl
@[simp] theorem State.dropCell_agent (g : SlotId) : (s.dropCell g).agent = s.agent := rfl
@[simp] theorem State.dropCell_events (g : SlotId) : (s.dropCell g).events = s.events := rfl
@[simp] theorem State.dropCell_channels (g : SlotId) : (s.dropCell g).channels = s.channels := rfl
@[simp] theorem State.dropCell_loader (g : SlotId) : (s.dropCell g).loader = s.loader := rfl
@[simp] theorem State.dropCell_flash (g : SlotId) : (s.dropCell g).flash = s.flash := rfl

@[simp] theorem State.pushCell_pending (g : SlotId) (b : CellBody) : (s.pushCell g b).pending = s.pending := rfl
@[simp] theorem State.pushCell_free (g : SlotId) (b : CellBody) : (s.pushCell g b).free = s.free := rfl
@[simp] theorem State.pushCell_lineTime (g : SlotId) (b : CellBody) : (s.pushCell g b).lineTime = s.lineTime := rfl
@[simp] theorem State.pushCell_ports (g : SlotId) (b : CellBody) : (s.pushCell g b).ports =
    { s.ports with cellOwn := s.ports.cellOwn ++ [⟨g, s.envelopeTo ((s.robotNode? g).getD 0), b⟩] } := rfl
@[simp] theorem State.pushCell_filter (g : SlotId) (b : CellBody) : (s.pushCell g b).filter = s.filter := rfl
@[simp] theorem State.pushCell_tracker (g : SlotId) (b : CellBody) : (s.pushCell g b).tracker = s.tracker := rfl
@[simp] theorem State.pushCell_banks (g : SlotId) (b : CellBody) : (s.pushCell g b).banks = s.banks := rfl
@[simp] theorem State.pushCell_resolver (g : SlotId) (b : CellBody) : (s.pushCell g b).resolver = s.resolver := rfl
@[simp] theorem State.pushCell_guns (g : SlotId) (b : CellBody) : (s.pushCell g b).guns = s.guns := rfl
@[simp] theorem State.pushCell_tags (g : SlotId) (b : CellBody) : (s.pushCell g b).tags = s.tags := rfl
@[simp] theorem State.pushCell_holdScope (g : SlotId) (b : CellBody) : (s.pushCell g b).holdScope = s.holdScope := rfl
@[simp] theorem State.pushCell_agent (g : SlotId) (b : CellBody) : (s.pushCell g b).agent = s.agent := rfl
@[simp] theorem State.pushCell_events (g : SlotId) (b : CellBody) : (s.pushCell g b).events = s.events := rfl
@[simp] theorem State.pushCell_channels (g : SlotId) (b : CellBody) : (s.pushCell g b).channels = s.channels := rfl
@[simp] theorem State.pushCell_loader (g : SlotId) (b : CellBody) : (s.pushCell g b).loader = s.loader := rfl
@[simp] theorem State.pushCell_flash (g : SlotId) (b : CellBody) : (s.pushCell g b).flash = s.flash := rfl

@[simp] theorem State.pushUplink_pending (t : UplinkTelegram) : (s.pushUplink t).pending = s.pending := rfl
@[simp] theorem State.pushUplink_free (t : UplinkTelegram) : (s.pushUplink t).free = s.free := rfl
@[simp] theorem State.pushUplink_lineTime (t : UplinkTelegram) : (s.pushUplink t).lineTime = s.lineTime := rfl
@[simp] theorem State.pushUplink_ports (t : UplinkTelegram) : (s.pushUplink t).ports =
    { s.ports with uplinkOwn := s.ports.uplinkOwn ++ [t] } := rfl
@[simp] theorem State.pushUplink_filter (t : UplinkTelegram) : (s.pushUplink t).filter = s.filter := rfl
@[simp] theorem State.pushUplink_tracker (t : UplinkTelegram) : (s.pushUplink t).tracker = s.tracker := rfl
@[simp] theorem State.pushUplink_banks (t : UplinkTelegram) : (s.pushUplink t).banks = s.banks := rfl
@[simp] theorem State.pushUplink_resolver (t : UplinkTelegram) : (s.pushUplink t).resolver = s.resolver := rfl
@[simp] theorem State.pushUplink_guns (t : UplinkTelegram) : (s.pushUplink t).guns = s.guns := rfl
@[simp] theorem State.pushUplink_tags (t : UplinkTelegram) : (s.pushUplink t).tags = s.tags := rfl
@[simp] theorem State.pushUplink_holdScope (t : UplinkTelegram) : (s.pushUplink t).holdScope = s.holdScope := rfl
@[simp] theorem State.pushUplink_agent (t : UplinkTelegram) : (s.pushUplink t).agent = s.agent := rfl
@[simp] theorem State.pushUplink_events (t : UplinkTelegram) : (s.pushUplink t).events = s.events := rfl
@[simp] theorem State.pushUplink_channels (t : UplinkTelegram) : (s.pushUplink t).channels = s.channels := rfl
@[simp] theorem State.pushUplink_loader (t : UplinkTelegram) : (s.pushUplink t).loader = s.loader := rfl
@[simp] theorem State.pushUplink_flash (t : UplinkTelegram) : (s.pushUplink t).flash = s.flash := rfl

@[simp] theorem State.addEntry_pending (g : SlotId) (e : SlotEntry) : (s.addEntry g e).pending = s.pending := rfl
@[simp] theorem State.addEntry_free (g : SlotId) (e : SlotEntry) : (s.addEntry g e).free = s.free := rfl
@[simp] theorem State.addEntry_lineTime (g : SlotId) (e : SlotEntry) : (s.addEntry g e).lineTime = s.lineTime := rfl
@[simp] theorem State.addEntry_ports (g : SlotId) (e : SlotEntry) : (s.addEntry g e).ports = s.ports := rfl
@[simp] theorem State.addEntry_filter (g : SlotId) (e : SlotEntry) : (s.addEntry g e).filter = s.filter := rfl
@[simp] theorem State.addEntry_tracker (g : SlotId) (e : SlotEntry) : (s.addEntry g e).tracker =
    { s.tracker with stations := s.tracker.stations.set (stationOf g) ((s.station (stationOf g)).modifyHead fun r => { r with entries := r.entries ++ [e] }) } := rfl
@[simp] theorem State.addEntry_banks (g : SlotId) (e : SlotEntry) : (s.addEntry g e).banks = s.banks := rfl
@[simp] theorem State.addEntry_resolver (g : SlotId) (e : SlotEntry) : (s.addEntry g e).resolver = s.resolver := rfl
@[simp] theorem State.addEntry_guns (g : SlotId) (e : SlotEntry) : (s.addEntry g e).guns = s.guns := rfl
@[simp] theorem State.addEntry_tags (g : SlotId) (e : SlotEntry) : (s.addEntry g e).tags = s.tags := rfl
@[simp] theorem State.addEntry_holdScope (g : SlotId) (e : SlotEntry) : (s.addEntry g e).holdScope =
    s.holdScope := rfl
@[simp] theorem State.addEntry_agent (g : SlotId) (e : SlotEntry) : (s.addEntry g e).agent = s.agent := rfl
@[simp] theorem State.addEntry_events (g : SlotId) (e : SlotEntry) : (s.addEntry g e).events = s.events := rfl
@[simp] theorem State.addEntry_channels (g : SlotId) (e : SlotEntry) : (s.addEntry g e).channels = s.channels := rfl
@[simp] theorem State.addEntry_loader (g : SlotId) (e : SlotEntry) : (s.addEntry g e).loader = s.loader := rfl
@[simp] theorem State.addEntry_flash (g : SlotId) (e : SlotEntry) : (s.addEntry g e).flash = s.flash := rfl

@[simp] theorem State.countAt_pending (st : StationId) (f : StationCounters → StationCounters) : (s.countAt st f).pending =
    s.pending := rfl
@[simp] theorem State.countAt_free (st : StationId) (f : StationCounters → StationCounters) : (s.countAt st f).free =
    s.free := rfl
@[simp] theorem State.countAt_lineTime (st : StationId) (f : StationCounters → StationCounters) : (s.countAt st f).lineTime =
    s.lineTime := rfl
@[simp] theorem State.countAt_ports (st : StationId) (f : StationCounters → StationCounters) : (s.countAt st f).ports =
    s.ports := rfl
@[simp] theorem State.countAt_filter (st : StationId) (f : StationCounters → StationCounters) : (s.countAt st f).filter =
    s.filter := rfl
@[simp] theorem State.countAt_tracker (st : StationId) (f : StationCounters → StationCounters) : (s.countAt st f).tracker =
    { s.tracker with stations := s.tracker.stations.set st { s.station st with counters := f (s.station st).counters } } := rfl
@[simp] theorem State.countAt_banks (st : StationId) (f : StationCounters → StationCounters) : (s.countAt st f).banks =
    s.banks := rfl
@[simp] theorem State.countAt_resolver (st : StationId) (f : StationCounters → StationCounters) : (s.countAt st f).resolver =
    s.resolver := rfl
@[simp] theorem State.countAt_guns (st : StationId) (f : StationCounters → StationCounters) : (s.countAt st f).guns =
    s.guns := rfl
@[simp] theorem State.countAt_tags (st : StationId) (f : StationCounters → StationCounters) : (s.countAt st f).tags =
    s.tags := rfl
@[simp] theorem State.countAt_holdScope (st : StationId) (f : StationCounters → StationCounters) : (s.countAt st f).holdScope =
    s.holdScope := rfl
@[simp] theorem State.countAt_agent (st : StationId) (f : StationCounters → StationCounters) : (s.countAt st f).agent =
    s.agent := rfl
@[simp] theorem State.countAt_events (st : StationId) (f : StationCounters → StationCounters) : (s.countAt st f).events =
    s.events := rfl
@[simp] theorem State.countAt_channels (st : StationId) (f : StationCounters → StationCounters) : (s.countAt st f).channels =
    s.channels := rfl
@[simp] theorem State.countAt_loader (st : StationId) (f : StationCounters → StationCounters) : (s.countAt st f).loader =
    s.loader := rfl
@[simp] theorem State.countAt_flash (st : StationId) (f : StationCounters → StationCounters) : (s.countAt st f).flash =
    s.flash := rfl

end Parts

end Sys2Proof.Machine
end

