-- ==== Sys2Proof/Laws/Configs.lean ====
section
/-! SUPPORT. What the shape values and the other values of a configuration do when they are applied, as Safety states the two. -/

namespace Sys2Proof.Machine

/-- The slots a shape returns to their power-up values, by its nodes. -/
theorem State.shapeResets_eq (s : State) (x : Shape) :
    s.shapeResets x = fun g => x.nodes[g].isNone || x.nodes[g] != s.robotNode? g := rfl

/-- A slot keeps its tag state exactly where it stays configured with the same node. -/
theorem resets_eq_not_kept (s : State) (nodes : Vector (Option Node) 32) (g : SlotId) :
    (nodes[g].isNone || nodes[g] != s.robotNode? g) = !(nodes[g].isSome && nodes[g] == s.robotNode? g) := by
  cases h : nodes[g] <;> simp [bne]

/-- The shape values applied, with the shape's nodes and counts named. -/
theorem State.applyShape_eq_shaped_of (s : State) (x : Shape) (nodes : Vector (Option Node) 32) (counts : Vector Nat 4)
    (hn : x.nodes = nodes) (hc : x.counts = counts) : s.applyShape x = s.shaped x := by
  unfold State.applyShape State.shaped
  rw [State.shapeResets_eq]
  rw [hn, hc]
  have e1 :
      (Vector.ofFn fun g =>
        if (nodes[g].isNone || nodes[g] != s.robotNode? g) = true then TagState.reset else s.tagState g) =
      Vector.ofFn fun g =>
        if (nodes[g].isSome && nodes[g] == s.robotNode? g) = true then s.tagState g
        else ⟨1, 0, 0, false, none, none⟩ := by
    refine congrArg Vector.ofFn (funext fun g => ?_)
    rw [resets_eq_not_kept]
    generalize (nodes[g].isSome && nodes[g] == s.robotNode? g) = b
    cases b <;> rfl
  have e2 :
      (s.ports.cellOwn.filter fun t =>
        !(t.isCancel && (nodes[t.slot].isNone || nodes[t.slot] != s.robotNode? t.slot))) =
      s.ports.cellOwn.filter fun y =>
        match y.body with
        | .select _ => true
        | .cancel _ => (nodes[y.slot].isSome && nodes[y.slot] == s.robotNode? y.slot) := by
    refine List.filter_congr fun y _ => ?_
    rw [resets_eq_not_kept, CellTelegram.isCancel]
    cases y.body <;> simp
  simp only [tabulate, State.setTags, State.setPorts, State.setTracker, State.setFilter]
  rw [e1]
  congr 1
  congr 1

/-- The shape values are applied as `shaped` states them (R162, R184). -/
theorem State.applyShape_eq (s : State) (x : Shape) : s.applyShape x = s.shaped x :=
  s.applyShape_eq_shaped_of x _ _ rfl rfl

/-- The modes an image gives a station (R143). -/
theorem imageModes_eq (codes : List Octet) : imageModes codes = Vector.ofFn fun i =>
              match modeOf? (codes.getD i.val 255) with
              | some m => if (allKinds.getD i.val .unknownStyle).allows m = true then m else defaultModes[i]
              | none => defaultModes[i] := by
  refine congrArg Vector.ofFn (funext fun i => ?_)
  have : (allKinds.getD i.val .unknownStyle).number = i := by revert i; decide
  cases modeOf? (codes.getD i.val 255) <;> simp only [this]

/-- What an image makes of a station (R184). -/
theorem imageStation_eq (c : ImageConfig) (b : Bool) (st : StationId) (x : Station) : imageStation c b st x =
    match c.stations[st.val]? with
        | some (limit, codes) =>
          { x with
            readyLimit := if limit < 100 then 100 else if 30000 < limit then 30000 else limit
            modes := Vector.ofFn fun i =>
              match modeOf? (codes.getD i.val 255) with
              | some m => if (allKinds.getD i.val .unknownStyle).allows m = true then m else defaultModes[i]
              | none => defaultModes[i] }
        | none => if b = true then { x with readyLimit := 3000, modes := defaultModes } else x := by
  unfold imageStation clampReady clamp
  cases c.stations[st.val]? with
  | none => rfl
  | some y => simp only [imageModes_eq]

/-- What an image makes of a gun (R74, R184). -/
theorem imageGun_eq (c : ImageConfig) (b : Bool) (g : SlotId) (x : Gun) : imageGun c b g x =
   match imageLimits? c g with
      | some l =>
        let d := if l.dressLimit < 100 then 100 else if 60000 < l.dressLimit then 60000 else l.dressLimit
        { x with
          dressLimit := d
          hardLimit := max l.hardLimit d
          ceiling := if l.ceiling < 20 then 20 else if 1800 < l.ceiling then 1800 else l.ceiling }
      | none =>
        if b = true then { x with dressLimit := 2000, hardLimit := 3000, ceiling := 1800 } else x := by
  unfold imageGun clampLimits clamp Gun.withLimits defaultLimits
  cases imageLimits? c g with
  | none => rfl
  | some l =>
    simp only
    congr 1
    rw [Nat.max_def]
    split_ifs <;> omega

/-- The other values of a configuration are applied as `adjusted` states them (R184). -/
theorem State.applySettings_eq (s : State) (c : ImageConfig) (b : Bool) : s.applySettings c b = s.adjusted c b := by
  have h1 : (tabulate fun st => imageStation c b st (s.station st)) = _ :=
    congrArg Vector.ofFn (funext fun st => imageStation_eq c b st (s.station st))
  have h2 : (tabulate fun g => imageGun c b g (s.gun g)) = _ :=
    congrArg Vector.ofFn (funext fun g => imageGun_eq c b g (s.gun g))
  unfold State.applySettings State.adjusted
  rw [h1, h2]
  rfl

end Sys2Proof.Machine
end

