-- ==== Sys2Proof/Laws/Events.lean ====
section
/-! SUPPORT. What ends an event: when a NOTICE joins the Uplink own-telegram queue, and what a request command makes of the
state, once for every command. -/

namespace Sys2Proof.Machine

/-! ## The NOTICE at the end of an event (R171) -/

/-- An event whose flags that are set and enabled were so before calls for no NOTICE. -/
theorem noticeDue_eq_false {before after : Events}
    (h : ∀ i : Nat, after.flags.getLsbD i = true → after.enables.getLsbD i = true →
      before.flags.getLsbD i = true ∧ before.enables.getLsbD i = true) : noticeDue before after = false := by
  have : (after.flags &&& after.enables) &&& ~~~(before.flags &&& before.enables) = 0#29 := by
    apply BitVec.eq_of_getLsbD_eq
    intro i hi
    have := h i
    simp only [BitVec.getLsbD_and, BitVec.getLsbD_not, BitVec.getLsbD_zero]
    revert this
    cases after.flags.getLsbD i <;> cases after.enables.getLsbD i <;> simp
    intro h1 h2
    simp [h1, h2]
  simp [noticeDue, this]

/-- An event that leaves flags and enables as they were calls for no NOTICE. -/
theorem noticeDue_self {before after : Events} (hf : after.flags = before.flags) (he : after.enables = before.enables) :
    noticeDue before after = false :=
  noticeDue_eq_false fun _ h1 h2 => ⟨hf ▸ h1, he ▸ h2⟩

/-- The end of an event that calls for no NOTICE changes nothing. -/
theorem settleNotice_of_not_due {before after : State} (h : noticeDue before.events after.events = false) :
    settleNotice before after = after := by simp [settleNotice, h]

/-- The end of an event that leaves flags and enables as they were changes nothing. -/
theorem settleNotice_quiet {before after : State} (hf : after.events.flags = before.events.flags)
    (he : after.events.enables = before.events.enables) : settleNotice before after = after :=
  settleNotice_of_not_due (noticeDue_self hf he)

/-- A command that leaves flags and enables as they were answers exactly its effect. -/
theorem event_quiet {f : State → State} {s : State} (hf : (f s).events.flags = s.events.flags)
    (he : (f s).events.enables = s.events.enables) : event f s = .next (f s) := by
  rw [event, settleNotice_quiet hf he]

/-- A command whose effect is a given state that leaves flags and enables as they were answers that state. -/
theorem event_eq {f : State → State} {s t : State} (h : f s = t) (hf : t.events.flags = s.events.flags)
    (he : t.events.enables = s.events.enables) : event f s = .next t := by
  subst h; exact event_quiet hf he

/-- A command whose effect is a given state answers that state with the NOTICE its flags call for. -/
theorem event_noticed {f : State → State} {s t : State} (h : f s = t) : event f s = .next (settleNotice s t) := by
  rw [event, h]

/-- A command without an effect answers the same state. -/
theorem event_id {f : State → State} {s : State} (h : f s = s) : event f s = .next s := event_eq h rfl rfl

/-- What the end of an event can do: nothing, or one NOTICE at the back with the marker set. -/
theorem settleNotice_cases (before after : State) :
    settleNotice before after = after ∨
      (after.events.noticePending = false ∧ settleNotice before after =
        (after.setPorts { after.ports with uplinkOwn := after.ports.uplinkOwn ++ [.notice] }).setEvents
          { after.events with noticePending := true }) := by
  unfold settleNotice
  split
  · next h => right; simp_all
  · left; rfl

/-! ## Requests (R157, R158) -/

/-- A REPLY built from an answer, as `State.replied` states it. -/
theorem Answer.reply_eq (a : Answer) (e : RequestEntry) : a.reply e = a.state.replied e a.result a.data := rfl

/-- A request command that executes the front waiting entry answers its effect with the REPLY. -/
theorem runRequest_of_executes {s : State} {i : Instr} {e : RequestEntry} {op : State → Answer} (h : s.executes i e) :
    s.runRequest i op = (op s).state.replied e (op s).result (op s).data := by
  obtain ⟨h1, h2, h3, h4⟩ := h
  simp [State.runRequest, h1, State.mayExecute, h2, h3, h4, Answer.reply_eq]

/-- A request command that finds no occasion changes nothing. -/
theorem runRequest_of_not_executes {s : State} {i : Instr} {op : State → Answer} (h : ∀ e, ¬s.executes i e) :
    s.runRequest i op = s := by
  unfold State.runRequest
  split
  · next e he =>
    split
    · next hc =>
      exact absurd ⟨he, by simpa [State.mayExecute] using hc⟩ (fun hx : s.frontWaiting? = some e ∧
        ((s.loader.activity ≠ .powerUpLoad ∧ s.restartAwaits = false) ∧ decodeRequest e.code e.params = i) =>
          h e ⟨hx.1, hx.2.1.1, hx.2.1.2, hx.2.2⟩)
    · rfl
  · rfl

/-- A request event that executes: its effect, its REPLY, and the NOTICE its flags call for. -/
theorem event_of_executes {s : State} {i : Instr} {e : RequestEntry} {op : State → Answer} (h : s.executes i e) :
    event (·.runRequest i op) s = .next (settleNotice s ((op s).state.replied e (op s).result (op s).data)) := by
  rw [event, runRequest_of_executes h]

/-- A request event that leaves flags and enables as they were. -/
theorem event_of_executes_quiet {s : State} {i : Instr} {e : RequestEntry} {op : State → Answer} (h : s.executes i e)
    (hf : (op s).state.events.flags = s.events.flags) (he : (op s).state.events.enables = s.events.enables) :
    event (·.runRequest i op) s = .next ((op s).state.replied e (op s).result (op s).data) := by
  rw [event_of_executes h]
  exact congrArg _ (settleNotice_quiet hf he)

/-- A request event whose answer is a given state, result and data, with flags and enables as they were. -/
theorem event_answer {s t : State} {i : Instr} {e : RequestEntry} {op : State → Answer} {r : ResultCode}
    {data : List Octet} (h : s.executes i e) (ha : op s = ⟨t, r, data⟩) (hf : t.events.flags = s.events.flags)
    (he : t.events.enables = s.events.enables) : event (·.runRequest i op) s = .next (t.replied e r data) := by
  rw [event_of_executes_quiet h (by rw [ha]; exact hf) (by rw [ha]; exact he), ha]

/-- A request event whose answer is a given state, result and data. -/
theorem event_answer_noticed {s t : State} {i : Instr} {e : RequestEntry} {op : State → Answer} {r : ResultCode}
    {data : List Octet} (h : s.executes i e) (ha : op s = ⟨t, r, data⟩) :
    event (·.runRequest i op) s = .next (settleNotice s (t.replied e r data)) := by
  rw [event_of_executes h, ha]

/-- A request event that leaves the Event Unit as it was. -/
theorem event_of_executes_refused {s : State} {i : Instr} {e : RequestEntry} {op : State → Answer} {r : ResultCode}
    {data : List Octet} (h : s.executes i e) (ha : op s = ⟨s, r, data⟩) :
    event (·.runRequest i op) s = .next (s.replied e r data) := by
  rw [event_of_executes_quiet h (by rw [ha]) (by rw [ha]), ha]

@[simp] theorem State.replied_pending (s : State) (e : RequestEntry) (r : ResultCode) (d : List Octet) :
    (s.replied e r d).pending = s.pending := rfl
@[simp] theorem State.replied_events (s : State) (e : RequestEntry) (r : ResultCode) (d : List Octet) :
    (s.replied e r d).events = s.events := rfl
@[simp] theorem State.replied_tracker (s : State) (e : RequestEntry) (r : ResultCode) (d : List Octet) :
    (s.replied e r d).tracker = s.tracker := rfl
@[simp] theorem State.replied_banks (s : State) (e : RequestEntry) (r : ResultCode) (d : List Octet) :
    (s.replied e r d).banks = s.banks := rfl
@[simp] theorem State.replied_guns (s : State) (e : RequestEntry) (r : ResultCode) (d : List Octet) :
    (s.replied e r d).guns = s.guns := rfl
@[simp] theorem State.replied_tags (s : State) (e : RequestEntry) (r : ResultCode) (d : List Octet) :
    (s.replied e r d).tags = s.tags := rfl
@[simp] theorem State.replied_filter (s : State) (e : RequestEntry) (r : ResultCode) (d : List Octet) :
    (s.replied e r d).filter = s.filter := rfl
@[simp] theorem State.replied_channels (s : State) (e : RequestEntry) (r : ResultCode) (d : List Octet) :
    (s.replied e r d).channels = s.channels := rfl
@[simp] theorem State.replied_loader (s : State) (e : RequestEntry) (r : ResultCode) (d : List Octet) :
    (s.replied e r d).loader = s.loader := rfl
@[simp] theorem State.replied_holdScope (s : State) (e : RequestEntry) (r : ResultCode) (d : List Octet) :
    (s.replied e r d).holdScope = s.holdScope := rfl
@[simp] theorem State.replied_flash (s : State) (e : RequestEntry) (r : ResultCode) (d : List Octet) :
    (s.replied e r d).flash = s.flash := rfl
@[simp] theorem State.replied_lineTime (s : State) (e : RequestEntry) (r : ResultCode) (d : List Octet) :
    (s.replied e r d).lineTime = s.lineTime := rfl

/-! ## Operands (R192) -/

/-- A station octet names a configured station exactly when it is that station's number, below the station count. -/
theorem State.configuredStation?_eq_some {s : State} {o : Octet} {st : StationId} :
    s.configuredStation? o = some st ↔ o.toNat = st.val ∧ st.val < s.tracker.stationCount := by
  unfold State.configuredStation?
  constructor
  · intro h
    split at h
    · split at h
      · cases h; exact ⟨rfl, ‹_›⟩
      · cases h
    · cases h
  · rintro ⟨h1, h2⟩
    have h3 : o.toNat < 4 := by omega
    rw [dif_pos h3, if_pos (by omega)]
    congr 1
    exact Fin.ext h1

/-- A station octet names no configured station exactly when it is above 3 or not below the station count. -/
theorem State.configuredStation?_eq_none {s : State} {o : Octet} :
    s.configuredStation? o = none ↔ 3 < o.toNat ∨ s.tracker.stationCount ≤ o.toNat := by
  unfold State.configuredStation?
  split
  · split <;> simp <;> omega
  · simp; omega

/-- A slot octet below 32 names its slot. -/
theorem slotOf?_eq_some {o : Octet} {g : SlotId} : slotOf? o = some g ↔ o.toNat = g.val := by
  unfold slotOf?
  constructor
  · intro h
    split at h
    · cases h; rfl
    · cases h
  · intro h
    rw [dif_pos (by omega)]
    congr 1
    exact Fin.ext h

/-- A slot octet above 31 names no slot. -/
theorem slotOf?_eq_none {o : Octet} : slotOf? o = none ↔ 31 < o.toNat := by
  unfold slotOf?
  split <;> simp <;> omega

/-- A channel octet below 8 names its channel. -/
theorem channelOf?_eq_some {o : Octet} {c : ChannelId} : channelOf? o = some c ↔ o.toNat = c.val := by
  unfold channelOf?
  constructor
  · intro h
    split at h
    · cases h; rfl
    · cases h
  · intro h
    rw [dif_pos (by omega)]
    congr 1
    exact Fin.ext h

/-- A station octet below 4 names its station. -/
theorem stationOf?_eq_some {o : Octet} {st : StationId} : stationOf? o = some st ↔ o.toNat = st.val := by
  unfold stationOf?
  constructor
  · intro h
    split at h
    · cases h; rfl
    · cases h
  · intro h
    rw [dif_pos (by omega)]
    congr 1
    exact Fin.ext h

end Sys2Proof.Machine
end

