-- ==== Sys2Proof/Laws/Ops.lean ====
section
/-! SUPPORT. The named operations read back: stations, guns, tag states and channels after a write, slots and their positions,
heads and their entries, the mirror where no channel matches, and when a station's test starts nothing. -/

namespace Sys2Proof.Machine

/-- Two states that agree in every field are equal. -/
theorem State.ext_fields {s t : State} (hp : s.pending = t.pending) (hf : s.free = t.free)
    (hl : s.lineTime = t.lineTime) (h1 : s.ports = t.ports) (h2 : s.filter = t.filter) (h3 : s.tracker = t.tracker)
    (h4 : s.banks = t.banks) (h5 : s.resolver = t.resolver) (h6 : s.guns = t.guns) (h7 : s.tags = t.tags)
    (h8 : s.holdScope = t.holdScope) (h9 : s.agent = t.agent) (h10 : s.events = t.events)
    (h11 : s.channels = t.channels) (h12 : s.loader = t.loader) (h13 : s.flash = t.flash) : s = t := by
  cases s; cases t; simp_all

/-! ## Elements after a write -/

@[simp] theorem State.station_setStation_self (s : State) (st : StationId) (x : Station) :
    (s.setStation st x).station st = x := by simp [State.station]

theorem State.station_setStation_ne (s : State) {st st' : StationId} (x : Station) (h : st' ≠ st) :
    (s.setStation st x).station st' = s.station st' := by
  have : st.val ≠ st'.val := fun e => h (Fin.ext e.symm)
  simp [State.station, Vector.getElem_set_ne, this]

/-- Of two writes to one station the second stands. -/
@[simp] theorem State.setStation_setStation (s : State) (st : StationId) (x y : Station) :
    (s.setStation st x).setStation st y = s.setStation st y := by
  simp [State.setStation, State.setTracker]

/-- Writing a station's own value changes nothing. -/
@[simp] theorem State.setStation_self (s : State) (st : StationId) : s.setStation st (s.station st) = s := by
  simp [State.setStation, State.setTracker, State.station]

@[simp] theorem State.gun_setGun_self (s : State) (g : SlotId) (x : Gun) : (s.setGun g x).gun g = x := by
  simp [State.gun]

@[simp] theorem State.tagState_setTag_self (s : State) (g : SlotId) (x : TagState) :
    (s.setTag g x).tagState g = x := by simp [State.tagState]

theorem State.tagState_setTag_ne (s : State) {g g' : SlotId} (x : TagState) (h : g' ≠ g) :
    (s.setTag g x).tagState g' = s.tagState g' := by
  have : g.val ≠ g'.val := fun e => h (Fin.ext e.symm)
  simp [State.tagState, Vector.getElem_set_ne, this]

/-- A state whose stations are those of another reads the same station. -/
theorem State.station_congr {s t : State} (h : t.tracker.stations = s.tracker.stations) (st : StationId) :
    t.station st = s.station st := by simp [State.station, h]

@[simp] theorem State.setFlagIf_false (s : State) (f : EventFlag) : s.setFlagIf false f = s := rfl

@[simp] theorem State.setFlagIf_true (s : State) (f : EventFlag) : s.setFlagIf true f = s.setFlag f := rfl

/-! ## Slots and positions -/

@[simp] theorem stationOf_slotOf (st : StationId) (p : Position) : stationOf (slotOf st p) = st := by
  apply Fin.ext; simp only [stationOf, slotOf]; omega

@[simp] theorem positionOf_slotOf (st : StationId) (p : Position) : positionOf (slotOf st p) = p := by
  apply Fin.ext; simp only [positionOf, slotOf]; omega

@[simp] theorem slotOf_stationOf_positionOf (g : SlotId) : slotOf (stationOf g) (positionOf g) = g := by
  apply Fin.ext; simp only [stationOf, positionOf, slotOf]; omega

/-! ## Heads and entries -/

/-- The head of a queue whose front record is ACTIVE. -/
theorem Station.head?_cons {x : Station} {r : BodyRecord} {rest : List BodyRecord} (h : x.queue = r :: rest) :
    x.head? = if r.state = .active then some r else none := by simp [Station.head?, h]

/-- A station has a head exactly when its front record is ACTIVE. -/
theorem Station.head?_eq_some {x : Station} {r : BodyRecord} :
    x.head? = some r ↔ r.state = .active ∧ ∃ rest, x.queue = r :: rest := by
  unfold Station.head?
  split
  · next y rest hq =>
    split
    · next hy =>
      constructor
      · intro h; cases h; exact ⟨hy, rest, hq⟩
      · rintro ⟨_, rest', hq'⟩; rw [hq] at hq'; cases hq'; rfl
    · next hy =>
      constructor
      · intro h; cases h
      · rintro ⟨h1, rest', hq'⟩; rw [hq] at hq'; cases hq'; exact absurd h1 hy
  · next hq => simp [hq]

/-- The station with its head changed, where it has one. -/
theorem Station.modifyHead_of_head? {x : Station} {r : BodyRecord} {rest : List BodyRecord} (f : BodyRecord → BodyRecord)
    (h : x.queue = r :: rest) (ha : r.state = .active) : x.modifyHead f = { x with queue := f r :: rest } := by
  simp [Station.modifyHead, h, ha]

@[simp] theorem Station.modifyHead_state (x : Station) (f : BodyRecord → BodyRecord) :
    (x.modifyHead f).state = x.state := by
  unfold Station.modifyHead; split <;> [split; skip] <;> rfl

@[simp] theorem Station.modifyHead_dry (x : Station) (f : BodyRecord → BodyRecord) : (x.modifyHead f).dry = x.dry := by
  unfold Station.modifyHead; split <;> [split; skip] <;> rfl

@[simp] theorem Station.modifyHead_readyLimit (x : Station) (f : BodyRecord → BodyRecord) :
    (x.modifyHead f).readyLimit = x.readyLimit := by
  unfold Station.modifyHead; split <;> [split; skip] <;> rfl

@[simp] theorem Station.modifyHead_headLimit (x : Station) (f : BodyRecord → BodyRecord) :
    (x.modifyHead f).headLimit = x.headLimit := by
  unfold Station.modifyHead; split <;> [split; skip] <;> rfl

@[simp] theorem Station.modifyHead_modes (x : Station) (f : BodyRecord → BodyRecord) :
    (x.modifyHead f).modes = x.modes := by
  unfold Station.modifyHead; split <;> [split; skip] <;> rfl

@[simp] theorem Station.modifyHead_counters (x : Station) (f : BodyRecord → BodyRecord) :
    (x.modifyHead f).counters = x.counters := by
  unfold Station.modifyHead; split <;> [split; skip] <;> rfl

/-- The head after a change that keeps it ACTIVE. -/
theorem Station.head?_modifyHead {x : Station} {f : BodyRecord → BodyRecord}
    (hf : ∀ r, x.head? = some r → (f r).state = .active) : (x.modifyHead f).head? = x.head?.map f := by
  unfold Station.modifyHead
  split
  · next r rest hq =>
    split
    · next ha =>
      have hr : x.head? = some r := Station.head?_eq_some.2 ⟨ha, rest, hq⟩
      rw [hr]
      exact Station.head?_eq_some.2 ⟨hf r hr, rest, rfl⟩
    · next ha => simp [Station.head?, hq, ha]
  · next hq => simp [Station.head?, hq]

@[simp] theorem BodyRecord.modifyEntry_state (r : BodyRecord) (p : Position) (f : SlotEntry → SlotEntry) :
    (r.modifyEntry p f).state = r.state := rfl

@[simp] theorem BodyRecord.modifyEntry_bodyHeld (r : BodyRecord) (p : Position) (f : SlotEntry → SlotEntry) :
    (r.modifyEntry p f).bodyHeld = r.bodyHeld := rfl

@[simp] theorem BodyRecord.modifyEntry_bankTag (r : BodyRecord) (p : Position) (f : SlotEntry → SlotEntry) :
    (r.modifyEntry p f).bankTag = r.bankTag := rfl

/-- The entry at a position after a change that keeps positions. -/
theorem BodyRecord.entry?_modifyEntry {r : BodyRecord} {p : Position} {f : SlotEntry → SlotEntry}
    (hf : ∀ e, (f e).position = e.position) : (r.modifyEntry p f).entry? p = (r.entry? p).map f := by
  unfold BodyRecord.entry? BodyRecord.modifyEntry
  simp only
  induction r.entries with
  | nil => rfl
  | cons e rest ih =>
    by_cases h : e.position = p
    · simp [h, hf]
    · simp [h, ih]

/-- The head's entry at a slot, read from the head. -/
theorem State.entry?_of_head? {s : State} {g : SlotId} {r : BodyRecord} (h : s.head? (stationOf g) = some r) :
    s.entry? g = r.entry? (positionOf g) := by simp [State.entry?, h]

/-- A slot with a tag owner has that entry in its station's head. -/
theorem State.entry?_of_tagOwner? {s : State} {g : SlotId} {e : SlotEntry} (h : s.tagOwner? g = some e) :
    s.entry? g = some e := by
  unfold State.tagOwner? at h
  split at h
  · exact h
  · cases h

/-- A slot with an entry has a head in its station. -/
theorem State.head?_of_entry? {s : State} {g : SlotId} {e : SlotEntry} (h : s.entry? g = some e) :
    ∃ r, s.head? (stationOf g) = some r ∧ r.entry? (positionOf g) = some e := by
  simpa [State.entry?, Option.bind_eq_some_iff] using h

/-! ## Modes -/

/-- The mode of a kind that reads the same modes. -/
theorem State.mode_congr {s t : State} {st : StationId} (h : (t.station st).modes = (s.station st).modes)
    (k : FaultKind) : t.mode st k = s.mode st k := by simp [State.mode, h]

/-- A mode read is one the kind allows. -/
theorem State.mode_allowed (s : State) (st : StationId) (k : FaultKind) : k.allows (s.mode st k) = true := by
  unfold State.mode
  split
  · assumption
  · cases k <;> rfl

/-! ## The Mirror Unit -/

/-- A record that a channel does not match leaves that channel's offer without effect. -/
theorem offerCopy_of_not_hits {st : StationId} {content : CopyContent} {s : State} {c : ChannelId}
    (h : s.channels[c].hits st content = false) : offerCopy st content s c = s := by
  unfold offerCopy
  rw [if_neg (by rw [h]; exact Bool.false_ne_true)]

/-- A record that no channel matches is mirrored nowhere. -/
theorem State.mirror_of_unmirrored {s : State} {st : StationId} {content : CopyContent}
    (h : s.unmirrored st content.trigger) : s.mirror st content = s := by
  have key : ∀ l : List ChannelId, l.foldl (offerCopy st content) s = s := by
    intro l
    induction l with
    | nil => rfl
    | cons c rest ih =>
      rw [List.foldl_cons, offerCopy_of_not_hits, ih]
      have := h c
      simp only [Channel.hits]
      rw [Bool.eq_false_iff]
      intro hx
      simp only [Bool.and_eq_true, beq_iff_eq] at hx
      exact this ⟨hx.1.1, hx.1.2, hx.2⟩
  exact key _

/-- A slot fault that no channel matches is mirrored nowhere. -/
theorem State.mirrorFault_of_unmirrored {s : State} {g : SlotId} {k : FaultKind}
    (h : s.unmirrored (stationOf g) .slotFault) : s.mirrorFault g k = s := by
  unfold State.mirrorFault
  split
  · exact State.mirror_of_unmirrored (by simpa [CopyContent.trigger] using h)
  · rfl

/-- A completion that no channel matches is mirrored nowhere. -/
theorem State.mirrorDone_of_unmirrored {s : State} {g : SlotId} (h : s.unmirrored (stationOf g) .slotDone) :
    s.mirrorDone g = s := by
  unfold State.mirrorDone
  split
  · exact State.mirror_of_unmirrored (by simpa [CopyContent.trigger] using h)
  · rfl

/-! ## Robot nodes -/

/-- A node that is no robot of a configured slot (R145). -/
theorem State.slotOfNode?_eq_none {s : State} {n : Node} :
    s.slotOfNode? n = none ↔ ∀ g : SlotId, s.robotNode? g ≠ some n := by
  unfold State.slotOfNode?
  rw [List.find?_eq_none]
  have : ∀ g : SlotId, g ∈ allSlots := by decide
  simp [this]

/-! ## The test of the head start condition (R12) -/

/-- A station whose head start condition does not hold is left as it is. -/
theorem State.startHeads_of_not_canStart {s : State} {st : StationId} (h : s.canStart st = false) (n : Nat) :
    State.startHeads st n s = s := by
  cases n <;> simp [State.startHeads, h]

/-- Where the head start condition holds, the front record starts, and the records behind it are tested after it (R12, R15). -/
theorem State.testStation_of_canStart {s : State} {st : StationId} {r : BodyRecord} {rest : List BodyRecord}
    (h : s.canStart st = true) (hq : (s.station st).queue = r :: rest) : s.testStation st =
      State.startHeads st rest.length ((s.setStation st { s.station st with
        queue := { r with state := .active, startedAt := some s.lineTime } :: rest }).runHead st) := by
  have ha : s.activateFront st = s.setStation st { s.station st with
      queue := { r with state := .active, startedAt := some s.lineTime } :: rest } := by
    simp only [State.activateFront, hq]
  simp only [State.testStation, hq, List.length_cons, State.startHeads, h, if_true, ha]

/-- The same of its own test. -/
theorem State.testStation_of_not_canStart {s : State} {st : StationId} (h : s.canStart st = false) :
    s.testStation st = s := State.startHeads_of_not_canStart h _

/-- A station that is not IDLE starts no head. -/
theorem State.canStart_of_not_idle {s : State} {st : StationId} (h : (s.station st).state ≠ .idle) :
    s.canStart st = false := by
  have : ((s.station st).state == .idle) = false := by simpa using h
  simp [State.canStart, this]

/-- A station with an empty queue starts no head. -/
theorem State.canStart_of_empty {s : State} {st : StationId} (h : (s.station st).queue = []) :
    s.canStart st = false := by
  simp [State.canStart, Station.frontQueued, h]

/-- Where no Section Hold ends, no further station is tested. -/
theorem testAfterHold_of_no_hold {before released tested : State} (h : before.sectionHold = false) :
    testAfterHold before released tested = tested := by simp [testAfterHold, h]

/-- Under hold scope STATION there is no Section Hold. -/
theorem State.sectionHold_of_station_scope {s : State} (h : s.holdScope = .station) : s.sectionHold = false := by
  simp [State.sectionHold, h]

/-- Two states of one hold scope and of stations in equal states are under a Section Hold together. -/
theorem State.sectionHold_congr {s t : State} (h : t.holdScope = s.holdScope)
    (hs : ∀ st, (t.station st).state = (s.station st).state) : t.sectionHold = s.sectionHold := by
  simp [State.sectionHold, h, hs]

end Sys2Proof.Machine
end

