-- ==== Sys2Proof/Laws/Dispatch.lean ====
section
/-! SUPPORT. What the dispatch of bodies can change: one relation between the state before and the state after, which every
operation of the Body Tracker, the Resolver, the Handshake Engine and the Fault Supervisor keeps, and what follows of it. -/

namespace Sys2Proof.Machine

/-- What dispatching bodies leaves as it was, whatever it does. -/
structure Dispatched (s t : State) : Prop where
  pending : t.pending = s.pending
  lineTime : t.lineTime = s.lineTime
  filter : t.filter = s.filter
  holdScope : t.holdScope = s.holdScope
  agent : t.agent = s.agent
  loader : t.loader = s.loader
  flash : t.flash = s.flash
  banks : ∃ o m, t.banks = { s.banks with other := o, loadIncomplete := m }
  shape : t.tracker.stationCount = s.tracker.stationCount ∧ t.tracker.slotCounts = s.tracker.slotCounts ∧
    t.tracker.refusalLog = s.tracker.refusalLog
  settings : ∀ st, (t.station st).dry = (s.station st).dry ∧ (t.station st).readyLimit = (s.station st).readyLimit ∧
    (t.station st).modes = (s.station st).modes ∧
    ((t.station st).headLimit = (s.station st).headLimit ∨ (t.station st).headLimit = (s.station st).readyLimit)
  ports : ∃ c u, t.ports = { s.ports with cellOwn := c, uplinkOwn := s.ports.uplinkOwn ++ u } ∧
    ∀ x ∈ u, x.isReply = false ∧ x.isNotice = false
  copies : s.copiesWaiting ≤ 11 → t.copiesWaiting ≤ 11
  events : ∃ f, t.events = { s.events with flags := f }
  guns : ∀ g : SlotId, s.guns[g].inRange → t.guns[g].inRange
  tags : ∀ g : SlotId, s.tags[g].next ≠ 0 → t.tags[g].next ≠ 0

namespace Dispatched

theorem refl (s : State) : Dispatched s s where
  pending := rfl
  lineTime := rfl
  filter := rfl
  holdScope := rfl
  agent := rfl
  loader := rfl
  flash := rfl
  banks := ⟨_, _, rfl⟩
  shape := ⟨rfl, rfl, rfl⟩
  settings := fun _ => ⟨rfl, rfl, rfl, .inl rfl⟩
  ports := ⟨s.ports.cellOwn, [], by simp, by simp⟩
  copies := id
  events := ⟨_, rfl⟩
  guns := fun _ => id
  tags := fun _ => id

theorem trans {s t u : State} (h : Dispatched s t) (k : Dispatched t u) : Dispatched s u where
  pending := k.pending.trans h.pending
  lineTime := k.lineTime.trans h.lineTime
  filter := k.filter.trans h.filter
  holdScope := k.holdScope.trans h.holdScope
  agent := k.agent.trans h.agent
  loader := k.loader.trans h.loader
  flash := k.flash.trans h.flash
  banks := by
    obtain ⟨o, m, ho⟩ := h.banks
    obtain ⟨o', m', ho'⟩ := k.banks
    exact ⟨o', m', by rw [ho', ho]⟩
  shape := ⟨k.shape.1.trans h.shape.1, k.shape.2.1.trans h.shape.2.1, k.shape.2.2.trans h.shape.2.2⟩
  settings := fun st => by
    obtain ⟨h1, h2, h3, h4⟩ := h.settings st
    obtain ⟨k1, k2, k3, k4⟩ := k.settings st
    exact ⟨k1.trans h1, k2.trans h2, k3.trans h3, k4.elim (fun e => by rwa [e]) fun e => .inr (e.trans h2)⟩
  ports := by
    obtain ⟨c, v, hv, hw⟩ := h.ports
    obtain ⟨c', v', hv', hw'⟩ := k.ports
    refine ⟨c', v ++ v', by rw [hv', hv]; simp, ?_⟩
    intro x hx
    rcases List.mem_append.1 hx with hx | hx
    · exact hw x hx
    · exact hw' x hx
  copies := fun hs => k.copies (h.copies hs)
  events := by
    obtain ⟨f, hf⟩ := h.events
    obtain ⟨f', hf'⟩ := k.events
    exact ⟨f', by rw [hf', hf]⟩
  guns := fun g hg => k.guns g (h.guns g hg)
  tags := fun g hg => k.tags g (h.tags g hg)

/-- The same, the later operation first. -/
theorem after {s t u : State} (k : Dispatched t u) (h : Dispatched s t) : Dispatched s u := h.trans k

/-- A dispatch operation folded over a list. -/
theorem foldl {α : Type} {f : State → α → State} (h : ∀ s a, Dispatched s (f s a)) (l : List α) (s : State) :
    Dispatched s (l.foldl f s) := by
  induction l generalizing s with
  | nil => exact refl s
  | cons a rest ih => exact (h s a).trans (ih _)

/-! ## Writes of one part of the state -/

/-- A flag latched. -/
theorem setFlag (s : State) (f : EventFlag) : Dispatched s (s.setFlag f) :=
  { refl s with events := ⟨_, rfl⟩ }

theorem setFlagIf (s : State) (c : Bool) (f : EventFlag) : Dispatched s (s.setFlagIf c f) := by
  cases c
  · exact refl s
  · exact setFlag s f

/-- A Mirror Channel written. -/
theorem setChannel (s : State) (c : ChannelId) (x : Channel) : Dispatched s (s.setChannel c x) :=
  { refl s with }

/-- The Resolver's structures written. -/
theorem setResolver (s : State) (r : Resolver) : Dispatched s (s.setResolver r) := { refl s with }

/-- A station written with its settings kept. -/
theorem setStation (s : State) (st : StationId) (x : Station) (h : x.dry = (s.station st).dry ∧
    x.readyLimit = (s.station st).readyLimit ∧ x.modes = (s.station st).modes ∧
    (x.headLimit = (s.station st).headLimit ∨ x.headLimit = (s.station st).readyLimit)) : Dispatched s (s.setStation st x) :=
  { refl s with
    settings := fun st' => by
      by_cases e : st' = st
      · subst e; rw [State.station_setStation_self]; exact h
      · rw [State.station_setStation_ne s x e]; exact ⟨rfl, rfl, rfl, .inl rfl⟩ }

theorem setStationState (s : State) (st : StationId) (x : StationState) : Dispatched s (s.setStationState st x) :=
  setStation s st _ ⟨rfl, rfl, rfl, .inl rfl⟩

theorem modifyHead (s : State) (st : StationId) (f : BodyRecord → BodyRecord) : Dispatched s (s.modifyHead st f) :=
  setStation s st _ ⟨by simp, by simp, by simp, .inl (by simp)⟩

theorem modifyEntry (s : State) (g : SlotId) (f : SlotEntry → SlotEntry) : Dispatched s (s.modifyEntry g f) :=
  modifyHead s _ _

theorem addEntry (s : State) (g : SlotId) (e : SlotEntry) : Dispatched s (s.addEntry g e) := modifyHead s _ _

/-- A gun written with a value in range. -/
theorem setGun (s : State) (g : SlotId) (x : Gun) (h : s.guns[g].inRange → x.inRange) : Dispatched s (s.setGun g x) :=
  { refl s with
    guns := fun g' hg => by
      by_cases e : g.val = g'.val
      · have : g = g' := Fin.ext e
        subst this
        simpa using h hg
      · simpa [Vector.getElem_set_ne, e] using hg }

/-- A tag state written with a next tag that is a tag. -/
theorem setTag (s : State) (g : SlotId) (x : TagState) (h : s.tags[g].next ≠ 0 → x.next ≠ 0) :
    Dispatched s (s.setTag g x) :=
  { refl s with
    tags := fun g' hg => by
      by_cases e : g.val = g'.val
      · have : g = g' := Fin.ext e
        subst this
        simpa using h hg
      · simpa [Vector.getElem_set_ne, e] using hg }

/-- The Cell own-telegram queue written. -/
theorem setCellOwn (s : State) (l : List CellTelegram) : Dispatched s (s.setPorts { s.ports with cellOwn := l }) :=
  { refl s with ports := ⟨l, [], by simp, by simp⟩ }

theorem dropCell (s : State) (g : SlotId) : Dispatched s (s.dropCell g) := setCellOwn s _

theorem pushCell (s : State) (g : SlotId) (b : CellBody) : Dispatched s (s.pushCell g b) := setCellOwn s _

/-- A RELEASE placed at the back of the Uplink own-telegram queue. -/
theorem pushRelease (s : State) (v : Envelope) (r : BodyRecord) : Dispatched s (s.pushUplink (.release v r)) :=
  { refl s with
    ports := ⟨s.ports.cellOwn, [.release v r], rfl, by simp [UplinkTelegram.isReply, UplinkTelegram.isNotice]⟩
    copies := fun h => by
      simpa [State.copiesWaiting, List.countP_append, List.countP_cons, UplinkTelegram.isCopy] using h }

/-! ## The Mirror Unit (R178, R179) -/

theorem offerCopy (st : StationId) (content : CopyContent) (s : State) (c : ChannelId) :
    Dispatched s (Machine.offerCopy st content s c) := by
  unfold Machine.offerCopy
  simp only
  split
  · split
    · next hroom =>
      refine after (setFlagIf _ _ _) (after (setChannel _ _ _) ?_)
      refine { refl s with
        ports := ⟨s.ports.cellOwn, [_], rfl, by simp [UplinkTelegram.isReply, UplinkTelegram.isNotice]⟩
        copies := fun _ => ?_ }
      have hone : ∀ u : UplinkTelegram, [u].countP (·.isCopy) ≤ 1 := fun u => List.countP_le_length
      simp only [State.copiesWaiting, State.pushUplink_ports, List.countP_append]
      exact Nat.add_le_add (Nat.le_of_lt_succ hroom) (hone _)
    · exact after (setFlag _ _) (setChannel _ _ _)
  · exact refl s

theorem mirror (s : State) (st : StationId) (content : CopyContent) : Dispatched s (s.mirror st content) :=
  foldl (offerCopy st content) _ s

theorem mirrorFault (s : State) (g : SlotId) (k : FaultKind) : Dispatched s (s.mirrorFault g k) := by
  unfold State.mirrorFault; split
  · exact mirror _ _ _
  · exact refl s

theorem mirrorDone (s : State) (g : SlotId) : Dispatched s (s.mirrorDone g) := by
  unfold State.mirrorDone; split
  · exact mirror _ _ _
  · exact refl s

/-! ## Selections (R95 to R102) -/

/-- The tag after a tag is a tag. -/
theorem nextTag_ne_zero (t : Tag) : nextTag t ≠ 0 := by
  unfold nextTag
  split
  · decide
  · next h =>
    intro h0
    apply h
    have := congrArg (· - 1#16) h0
    simpa using this

theorem sendSelect (s : State) (g : SlotId) : Dispatched s (s.sendSelect g) := by
  unfold State.sendSelect; split
  · exact after (modifyEntry _ _ _) (after (setTag _ _ _ fun _ => nextTag_ne_zero _)
      (after (pushCell _ _ _) (dropCell _ _)))
  · exact refl s

theorem cancelSlot (s : State) (g : SlotId) : Dispatched s (s.cancelSlot g) := by
  unfold State.cancelSlot
  simp only
  split
  · exact refl s
  · split
    · exact after (setTag _ _ _ id) (dropCell _ _)
    · exact after (setTag _ _ _ id) (pushCell _ _ _)

theorem reselect (s : State) (g : SlotId) : Dispatched s (s.reselect g) := by
  unfold State.reselect
  exact after (modifyEntry _ _ _) (after (sendSelect _ _) (after (setTag _ _ _ id) (dropCell _ _)))

/-! ## Release, head start and withdrawal (R12 to R22) -/

/-- Tag states written with next tags that are tags. -/
theorem setTags (s : State) (v : Vector TagState 32) (h : ∀ g : SlotId, s.tags[g].next ≠ 0 → v[g].next ≠ 0) :
    Dispatched s (s.setTags v) := { refl s with tags := h }

/-- Disowning keeps every next tag. -/
theorem disown_next (s : State) (st : StationId) (g : SlotId) : ((s.disown st).tags[g]).next = (s.tags[g]).next := by
  simp only [State.disown, State.setTags_tags, tabulate, Fin.getElem_fin, Vector.getElem_ofFn]
  split <;> rfl

theorem disown (s : State) (st : StationId) : Dispatched s (s.disown st) := by
  have h := disown_next s st
  unfold State.disown at h ⊢
  exact setTags _ _ fun g hg => by
    have := h g
    rw [State.setTags_tags] at this
    rw [this]; exact hg

theorem emitRelease (s : State) (r : BodyRecord) (cause : ReleaseCause) : Dispatched s (s.emitRelease r cause) := by
  unfold State.emitRelease
  exact after (mirror _ _ _) (after (setStation _ _ _ ⟨rfl, rfl, rfl, .inl rfl⟩) (pushRelease _ _ _))

theorem releaseHead (s : State) (st : StationId) (cause : ReleaseCause) : Dispatched s (s.releaseHead st cause) := by
  unfold State.releaseHead; split
  · exact refl s
  · exact after (emitRelease _ _ _) (after (disown _ _) (setStation _ _ _ ⟨rfl, rfl, rfl, .inl rfl⟩))

theorem afterResolution (s : State) (g : SlotId) (x : Resolution) : Dispatched s (s.afterResolution g x) := by
  unfold State.afterResolution
  exact after (setFlagIf _ _ _) (after (setFlagIf _ _ _) (after (setGun _ _ _ id) (setResolver _ _)))

theorem startSlot (s : State) (g : SlotId) : Dispatched s (s.startSlot g) := by
  unfold State.startSlot; split
  · exact refl s
  · simp only
    split
    · exact after (sendSelect _ _) (after (addEntry _ _ _) (afterResolution _ _ _))
    · split
      · exact after (mirrorFault _ _ _) (after (addEntry _ _ _) (afterResolution _ _ _))
      · exact after (sendSelect _ _) (after (mirrorFault _ _ _) (after (setFlag _ _) (after (addEntry _ _ _) (afterResolution _ _ _))))
      · exact after (mirrorFault _ _ _) (after (setFlag _ _) (after (addEntry _ _ _) (afterResolution _ _ _)))
      · exact after (mirrorFault _ _ _) (after (setFlag _ _) (after (addEntry _ _ _) (afterResolution _ _ _)))

theorem settleHead (s : State) (st : StationId) : Dispatched s (s.settleHead st) := by
  unfold State.settleHead; split
  · exact refl s
  · split
    · exact releaseHead _ _ _
    · exact setStationState _ _ _

theorem holdBody (s : State) (st : StationId) : Dispatched s (s.holdBody st) := by
  unfold State.holdBody
  exact after (setStationState _ _ _) (after (setFlag _ _) (modifyHead _ _ _))

/-- The ready limit in force for a head is the station's own, whose range is kept. -/
theorem latchReady (s : State) (st : StationId) : Dispatched s (s.latchReady st) :=
  setStation s st _ ⟨rfl, rfl, rfl, .inr rfl⟩

theorem runHead (s : State) (st : StationId) : Dispatched s (s.runHead st) := by
  unfold State.runHead; split
  · exact refl s
  · split
    · split
      · exact releaseHead _ _ _
      · exact holdBody _ _
    · exact after (settleHead _ _) (after (foldl startSlot _ _) (latchReady _ _))

theorem activateFront (s : State) (st : StationId) : Dispatched s (s.activateFront st) := by
  unfold State.activateFront
  simp only
  split
  · exact refl s
  · exact setStation _ _ _ ⟨rfl, rfl, rfl, .inl rfl⟩

theorem startHeads (st : StationId) (fuel : Nat) (s : State) : Dispatched s (State.startHeads st fuel s) := by
  induction fuel generalizing s with
  | zero => exact refl s
  | succ n ih =>
    unfold State.startHeads; split
    · exact after (ih _) (after (runHead _ _) (activateFront _ _))
    · exact refl s

theorem testStation (s : State) (st : StationId) : Dispatched s (s.testStation st) := startHeads _ _ _

theorem setFree (s : State) (n : Nat) : Dispatched s (s.setFree n) := { refl s with }

theorem testEvery (s : State) : Dispatched s s.testEvery := by
  unfold State.testEvery
  exact after (foldl testStation _ _) (setFree _ _)

theorem testAfterHold {s before released tested : State} (h : Dispatched s tested) :
    Dispatched s (Machine.testAfterHold before released tested) := by
  unfold Machine.testAfterHold; split
  · exact h.trans (testEvery _)
  · exact h

theorem testRelease (s : State) (st : StationId) : Dispatched s (s.testRelease st) := by
  unfold State.testRelease; split
  · split
    · exact after (testStation _ _) (releaseHead _ _ _)
    · exact refl s
  · exact refl s

theorem accept (s : State) (st : StationId) (r : BodyRecord) (c : Bool) : Dispatched s (s.accept st r c) := by
  unfold State.accept
  simp only
  split
  · exact after (testStation _ _) (after (setFlagIf _ _ _) (setStation _ _ _ ⟨rfl, rfl, rfl, .inl rfl⟩))
  · exact after (setFlagIf _ _ _) (setStation _ _ _ ⟨rfl, rfl, rfl, .inl rfl⟩)

theorem withdrawEntry (s : State) (g : SlotId) : Dispatched s (s.withdrawEntry g) := by
  unfold State.withdrawEntry; split
  · exact refl s
  · split
    · exact modifyEntry _ _ _
    · exact after (modifyEntry _ _ _) (cancelSlot _ _)
    · exact after (modifyEntry _ _ _) (cancelSlot _ _)
    · exact after (setFlagIf _ _ _) (modifyEntry _ _ _)
    · exact modifyEntry _ _ _
    · exact modifyEntry _ _ _

theorem abortHead (s : State) (st : StationId) : Dispatched s (s.abortHead st) := by
  unfold State.abortHead
  exact after (releaseHead _ _ _) (after (modifyHead _ _ _) (foldl withdrawEntry _ _))

theorem withdrawHead (s : State) (st : StationId) : Dispatched s (s.withdrawHead st) :=
  testAfterHold (after (testStation _ _) (abortHead _ _))

theorem withdrawQueued (s : State) (st : StationId) (r : BodyRecord) : Dispatched s (s.withdrawQueued st r) := by
  unfold State.withdrawQueued
  exact after (emitRelease _ _ _) (setStation _ _ _ ⟨rfl, rfl, rfl, .inl rfl⟩)

/-! ## Faults and CLEAR STATION (R125 to R141) -/

theorem enterHeld (s : State) (st : StationId) : Dispatched s (s.enterHeld st) := by
  unfold State.enterHeld; split
  · exact setStationState _ _ _
  · exact refl s

theorem takeFault (s : State) (g : SlotId) (k : FaultKind) : Dispatched s (s.takeFault g k) := by
  unfold State.takeFault
  simp only
  split
  · exact refl s
  · exact after (mirrorFault _ _ _) (after (enterHeld _ _) (after (setFlag _ _) (modifyEntry _ _ _)))
  · exact after (mirrorFault _ _ _) (after (modifyEntry _ _ _) (cancelSlot _ _))
  · exact after (mirrorFault _ _ _) (after (setFlag _ _) (modifyEntry _ _ _))

/-- A completion keeps a gun in range. -/
theorem completion_inRange {x : Gun} (h : x.inRange) (dry : Bool) (spots : Nat) (dressed : Bool) :
    (x.completion dry spots dressed).inRange := by
  obtain ⟨h1, h2, h3, h4, h5, h6, h7, h8, h9⟩ := h
  have hb : bump x.dressCount ≤ 65535 := by unfold bump; split <;> omega
  have ha : addSpots x.wear spots ≤ 65535 := by unfold addSpots; split <;> omega
  cases dry <;> cases dressed <;> simp_all [Gun.completion, Gun.inRange]

theorem acceptDone (s : State) (g : SlotId) (e : SlotEntry) (n : Nat) (reject dressed : Bool) :
    Dispatched s (s.acceptDone g e n reject dressed) := by
  unfold State.acceptDone
  simp only
  refine .trans ?_ (testRelease _ _)
  refine .trans ?_ (setGun _ _ _ fun h => completion_inRange h _ _ _)
  refine .trans ?_ (foldl (fun s k => mirrorFault s g k) _ _)
  refine .trans ?_ (mirrorDone _ _)
  split
  · exact after (enterHeld _ _) (after (setFlag _ _) (after (modifyEntry _ _ _) (setTag _ _ _ id)))
  · exact after (setFlag _ _) (after (modifyEntry _ _ _) (setTag _ _ _ id))
  · exact after (modifyEntry _ _ _) (setTag _ _ _ id)
  · exact after (modifyEntry _ _ _) (setTag _ _ _ id)
  · exact after (modifyEntry _ _ _) (setTag _ _ _ id)

theorem cancelIfSelected (s : State) (g : SlotId) (e : SlotEntry) : Dispatched s (s.cancelIfSelected g e) := by
  unfold State.cancelIfSelected; split
  · exact cancelSlot _ _
  · exact refl s

theorem retrySelection (s : State) (g : SlotId) (e : SlotEntry) : Dispatched s (s.retrySelection g e) := by
  unfold State.retrySelection
  simp only
  split
  · exact refl s
  · split
    · exact after (reselect _ _) (after (setFlag _ _) (after (modifyEntry _ _ _) (after (modifyEntry _ _ _)
        (afterResolution _ _ _))))
    · split
      · exact after (reselect _ _) (after (mirrorFault _ _ _) (after (setFlag _ _) (after (modifyEntry _ _ _) (after (modifyEntry _ _ _)
          (afterResolution _ _ _)))))
      · exact after (mirrorFault _ _ _) (after (modifyEntry _ _ _) (after (cancelIfSelected _ _ _)
          (after (modifyEntry _ _ _) (afterResolution _ _ _))))
      · exact after (mirrorFault _ _ _) (after (setFlag _ _) (after (modifyEntry _ _ _) (after (cancelIfSelected _ _ _)
          (after (modifyEntry _ _ _) (afterResolution _ _ _)))))
      · exact after (mirrorFault _ _ _) (after (setFlag _ _) (after (modifyEntry _ _ _) (after (cancelIfSelected _ _ _)
          (after (modifyEntry _ _ _) (afterResolution _ _ _)))))

theorem retryEntry (s : State) (g : SlotId) : Dispatched s (s.retryEntry g) := by
  unfold State.retryEntry; split
  · exact refl s
  · split
    · exact refl s
    · split
      · exact retrySelection _ _ _
      · exact retrySelection _ _ _
      · exact after (setFlag _ _) (after (modifyEntry _ _ _) (setTag _ _ _ id))
      · exact modifyEntry _ _ _
      · exact modifyEntry _ _ _
      · exact modifyEntry _ _ _

theorem skipEntry (s : State) (g : SlotId) : Dispatched s (s.skipEntry g) := by
  unfold State.skipEntry; split
  · exact refl s
  · split
    · exact refl s
    · split
      · exact modifyEntry _ _ _
      · exact modifyEntry _ _ _
      · exact modifyEntry _ _ _
      · exact after (modifyEntry _ _ _) (cancelSlot _ _)
      · exact after (modifyEntry _ _ _) (cancelSlot _ _)
      · exact modifyEntry _ _ _

theorem drainTest (s : State) : Dispatched s s.drainTest := by
  unfold State.drainTest; split
  · exact after (setFlag _ _) { refl s with banks := ⟨_, _, rfl⟩ }
  · exact refl s

theorem retryBody (s : State) (st : StationId) : Dispatched s (s.retryBody st) := by
  unfold State.retryBody; split
  · exact refl s
  · split
    · exact refl s
    · split
      · refine .trans ?_ (runHead _ _)
        split
        · exact modifyHead _ _ _
        · exact after (drainTest _) (modifyHead _ _ _)
      · split
        · exact after (releaseHead _ _ _) (modifyHead _ _ _)
        · exact holdBody _ _

theorem skipBody (s : State) (st : StationId) : Dispatched s (s.skipBody st) := by
  unfold State.skipBody; split
  · exact refl s
  · split
    · exact after (releaseHead _ _ _) (modifyHead _ _ _)
    · exact refl s

theorem clearHead (s : State) (st : StationId) (o : ClearOption) : Dispatched s (s.clearHead st o) := by
  cases o
  · exact after (retryBody _ _) (foldl retryEntry _ _)
  · exact after (skipBody _ _) (foldl skipEntry _ _)
  · exact abortHead _ _

theorem clearStation (s : State) (st : StationId) (o : ClearOption) : Dispatched s (s.clearStation st o).1 :=
  testAfterHold (after (testStation _ _) (after (settleHead _ _) (clearHead _ _ _)))

/-! ## The slot handshake (R103 to R113) -/

theorem countAt (s : State) (st : StationId) (f : StationCounters → StationCounters) : Dispatched s (s.countAt st f) :=
  setStation _ _ _ ⟨rfl, rfl, rfl, .inl rfl⟩

theorem acceptLoaded (s : State) (g : SlotId) : Dispatched s (s.acceptLoaded g) := by
  unfold State.acceptLoaded
  exact after (modifyEntry _ _ _) (setTag _ _ _ id)

theorem acceptRefused (s : State) (g : SlotId) (r : Option Nat) : Dispatched s (s.acceptRefused g r) := by
  unfold State.acceptRefused
  exact after (testRelease _ _) (after (takeFault _ _ _) (after (modifyEntry _ _ _) (setTag _ _ _ id)))

theorem takeTimeout (s : State) (g : SlotId) (k : FaultKind) : Dispatched s (s.takeTimeout g k) := by
  unfold State.takeTimeout; split
  · exact after (testRelease _ _) (takeFault _ _ _)
  · exact refl s

theorem readyExpires (s : State) (g : SlotId) : Dispatched s (s.readyExpires g) := by
  unfold State.readyExpires; split
  · exact after (takeTimeout _ _ _) (setTag _ _ _ id)
  · exact refl s

theorem cycleExpires (s : State) (g : SlotId) : Dispatched s (s.cycleExpires g) := by
  unfold State.cycleExpires; split
  · exact after (takeTimeout _ _ _) (setTag _ _ _ id)
  · exact refl s

/-! ## What follows -/

/-- Dispatching bodies keeps the tables of both banks. -/
theorem tables {s t : State} (h : Dispatched s t) (i : BankId) : t.banks.tables i = s.banks.tables i := by
  obtain ⟨o, m, hb⟩ := h.banks
  rw [hb]; cases i <;> rfl

/-- Dispatching bodies keeps the tables' canonical form. -/
theorem tablesCanonical {s t : State} (h : Dispatched s t) (hs : s.tablesCanonical) : t.tablesCanonical := by
  obtain ⟨o, m, hb⟩ := h.banks
  unfold State.tablesCanonical
  rw [hb]; exact hs

/-- Dispatching bodies keeps the tables' entries in range. -/
theorem tablesInRange {s t : State} (h : Dispatched s t) (hs : s.tablesInRange) : t.tablesInRange := by
  obtain ⟨o, m, hb⟩ := h.banks
  unfold State.tablesInRange
  rw [hb]; exact hs

/-- Dispatching bodies keeps every setting in range. -/
theorem settingsInRange {s t : State} (h : Dispatched s t) (hs : s.settingsInRange) : t.settingsInRange := by
  obtain ⟨h1, h2, h3⟩ := hs
  refine ⟨fun g => h.guns g (h1 g), fun st => ?_, ?_⟩
  · obtain ⟨_, e2, e3, e4⟩ := h.settings st
    obtain ⟨l1, l2, l3, l4, l5⟩ := h2 st
    unfold Station.settingsInRange
    rw [e2, e3]
    rcases e4 with e4 | e4 <;> rw [e4]
    · exact ⟨l1, l2, l3, l4, l5⟩
    · exact ⟨l1, l2, l1, l2, l5⟩
  · rw [h.loader]; exact h3

/-- Dispatching bodies keeps every next tag a tag. -/
theorem tagsValid {s t : State} (h : Dispatched s t) (hs : s.tagsValid) : t.tagsValid := fun g => h.tags g (hs g)

/-- Dispatching bodies keeps the configuration. -/
theorem sameConfiguration {s t : State} (h : Dispatched s t) : s.sameConfiguration t := by
  rw [State.sameConfiguration, h.filter]
  exact ⟨rfl, rfl, rfl, rfl, rfl, h.shape.1, h.shape.2.1⟩

/-- Dispatching bodies keeps the Uplink own-telegram queue and the Request Queue within their room. -/
theorem uplinkBounded {s t : State} (h : Dispatched s t) (hs : s.uplinkBounded) : t.uplinkBounded := by
  obtain ⟨h1, h2, h3, h4, h5⟩ := hs
  obtain ⟨c, u, hu, hx⟩ := h.ports
  obtain ⟨f, hf⟩ := h.events
  have hr : u.countP (·.isReply) = 0 := List.countP_eq_zero.2 fun x m => by simp [(hx x m).1]
  have hn : u.countP (·.isNotice) = 0 := List.countP_eq_zero.2 fun x m => by simp [(hx x m).2]
  refine ⟨h.copies h1, ?_, ?_, ?_, ?_⟩
  · rw [hu, hf]; simpa [List.countP_append, hn] using h2
  · rw [hu, h.agent]; simpa [List.countP_append, hr] using h3
  · rw [h.agent]; exact h4
  · rw [h.agent]; exact h5

end Dispatched

end Sys2Proof.Machine
end

