-- ==== Sys2Proof/Laws/Heads.lean ====
section
/-! SUPPORT. What the operations on a head do, once each: a selection called off, a record offered to the Mirror Channels, a slot
fault taken, a head released, a head selected at its slots, an entry skipped, retried or given up, as Safety states them. -/

namespace Sys2Proof.Machine

/-- Changing the head leaves the station's state. -/
theorem Station.withState_modifyHead (x : Station) (f : BodyRecord → BodyRecord) :
    { x.modifyHead f with state := x.state } = x.modifyHead f := by
  conv_lhs => rw [← Station.modifyHead_state x f]

/-- A slot with a current tag has its selection called off (R100). -/
theorem State.cancelSlot_eq {s : State} {g : SlotId} (h : (s.tagState g).current ≠ 0) :
    s.cancelSlot g = s.calledOff g := by
  unfold State.cancelSlot
  rw [if_neg h]
  unfold State.calledOff
  by_cases hw : s.selectWaiting g = true
  · simp only [hw, if_true]
    apply State.ext_fields <;> try rfl
    simp only [State.setTag_ports, State.dropCell, State.setPorts_ports]
    congr 1
    apply List.filter_congr
    intro x _
    by_cases hx : x.slot = g <;> simp [hx]
  · simp only [hw]
    rfl

/-! ## Result records offered (R178) -/

/-- A record offered to the channels changes the Uplink own-telegram queue, the channels and the event flags alone. -/
theorem State.offered_frame (s : State) (st : StationId) (content : CopyContent) : ∃ queue flags channels,
    s.offered st content = { s with
      ports := { s.ports with uplinkOwn := queue }
      events := { s.events with flags := flags }
      channels := channels } := by
  unfold State.offered
  generalize ([0, 1, 2, 3, 4, 5, 6, 7] : List ChannelId) = l
  induction l generalizing s with
  | nil => exact ⟨_, _, _, rfl⟩
  | cons c l ih =>
    rw [List.foldl_cons]
    have h1 : ∃ q f n, offerCopy st content s c = { s with
        ports := { s.ports with uplinkOwn := q }, events := { s.events with flags := f }, channels := n } := by
      unfold offerCopy
      dsimp only
      split
      · split
        · unfold State.setFlagIf
          split <;> exact ⟨_, _, _, rfl⟩
        · exact ⟨_, _, _, rfl⟩
      · exact ⟨_, _, _, rfl⟩
    obtain ⟨q, f, n, h⟩ := h1
    obtain ⟨q', f', n', h'⟩ := ih (offerCopy st content s c)
    exact ⟨q', f', n', by rw [h', h]⟩

@[simp] theorem State.offered_tracker (s : State) (st : StationId) (c : CopyContent) :
    (s.offered st c).tracker = s.tracker := by
  obtain ⟨_, _, _, h⟩ := s.offered_frame st c
  rw [h]

@[simp] theorem State.offered_tags (s : State) (st : StationId) (c : CopyContent) : (s.offered st c).tags = s.tags := by
  obtain ⟨_, _, _, h⟩ := s.offered_frame st c
  rw [h]

@[simp] theorem State.offered_guns (s : State) (st : StationId) (c : CopyContent) : (s.offered st c).guns = s.guns := by
  obtain ⟨_, _, _, h⟩ := s.offered_frame st c
  rw [h]

@[simp] theorem State.offered_holdScope (s : State) (st : StationId) (c : CopyContent) :
    (s.offered st c).holdScope = s.holdScope := by
  obtain ⟨_, _, _, h⟩ := s.offered_frame st c
  rw [h]

/-- The Mirror Unit does not read the guns. -/
theorem State.offered_withGuns (s : State) (v : Vector Gun 32) (st : StationId) (content : CopyContent) :
    State.offered { s with guns := v } st content = { s.offered st content with guns := v } := by
  unfold State.offered
  generalize ([0, 1, 2, 3, 4, 5, 6, 7] : List ChannelId) = l
  induction l generalizing s with
  | nil => rfl
  | cons c l ih =>
    rw [List.foldl_cons, List.foldl_cons, ← ih]
    congr 1
    have hw : State.copiesWaiting { s with guns := v } = s.copiesWaiting := rfl
    unfold offerCopy
    by_cases h1 : s.channels[c].hits st content = true
    · by_cases h2 : s.copiesWaiting < copyRoom
      · simp only [h1, h2, hw, if_true]
        cases s.channels[c].exhausts <;> rfl
      · simp only [h1, h2, hw, if_true, if_false]
        rfl
    · simp only [h1]
      rfl

/-- The Mirror Unit offers a record to the eight channels in ascending number. -/
theorem State.mirror_eq (s : State) (st : StationId) (c : CopyContent) : s.mirror st c = s.offered st c := rfl

theorem State.mirrorFault_eq (s : State) (g : SlotId) (k : FaultKind) : s.mirrorFault g k = s.faultOffered g k := rfl

theorem State.mirrorDone_eq (s : State) (g : SlotId) : s.mirrorDone g = s.doneOffered g := rfl

@[simp] theorem State.faultOffered_tracker (s : State) (g : SlotId) (k : FaultKind) :
    (s.faultOffered g k).tracker = s.tracker := by
  unfold State.faultOffered
  split <;> simp

@[simp] theorem State.doneOffered_tracker (s : State) (g : SlotId) : (s.doneOffered g).tracker = s.tracker := by
  unfold State.doneOffered
  split <;> simp

@[simp] theorem State.faultOffered_guns (s : State) (g : SlotId) (k : FaultKind) :
    (s.faultOffered g k).guns = s.guns := by
  unfold State.faultOffered
  split <;> simp

@[simp] theorem State.doneOffered_guns (s : State) (g : SlotId) : (s.doneOffered g).guns = s.guns := by
  unfold State.doneOffered
  split <;> simp

theorem State.faultOffered_withGuns (s : State) (v : Vector Gun 32) (g : SlotId) (k : FaultKind) :
    State.faultOffered { s with guns := v } g k = { s.faultOffered g k with guns := v } := by
  unfold State.faultOffered
  have h1 : State.head? { s with guns := v } (stationOf g) = s.head? (stationOf g) := rfl
  have h2 : State.entry? { s with guns := v } g = s.entry? g := rfl
  rw [h1, h2]
  split
  · exact State.offered_withGuns ..
  · rfl

theorem State.doneOffered_withGuns (s : State) (v : Vector Gun 32) (g : SlotId) :
    State.doneOffered { s with guns := v } g = { s.doneOffered g with guns := v } := by
  unfold State.doneOffered
  have h1 : State.head? { s with guns := v } (stationOf g) = s.head? (stationOf g) := rfl
  have h2 : State.entry? { s with guns := v } g = s.entry? g := rfl
  rw [h1, h2]
  split
  · exact State.offered_withGuns ..
  · rfl

/-! ## Slot faults and releases (R18, R125) -/

/-- A slot fault is taken as `faulted` states it (R125). -/
theorem State.takeFault_eq {s : State} {g : SlotId} {k : FaultKind}
    (hp : s.mode (stationOf g) k = .pass → (s.tagState g).current ≠ 0) : s.takeFault g k = s.faulted g k := by
  cases hk : s.mode (stationOf g) k with
  | off => simp only [State.takeFault, State.faulted, hk]
  | warn =>
    simp only [State.takeFault, State.faulted, hk]
    rfl
  | pass =>
    simp only [State.takeFault, State.faulted, hk]
    rw [State.cancelSlot_eq (hp hk)]
    rfl
  | hold =>
    simp only [State.takeFault, State.faulted, hk, State.enterHeld]
    rw [State.mirrorFault_eq]
    congr 1
    split
    · next hd =>
      have hd' : (s.station (stationOf g)).state = .dispatching := by
        simpa [State.station, State.modifyEntry, State.modifyHead] using hd
      apply State.ext_fields <;> try rfl
      simp only [hd', if_true, State.setStationState, State.modifyEntry, State.modifyHead]
      simp [State.setFlag, State.setEvents, addFault, State.setStation, State.setTracker, State.station]
    · next hd =>
      have hd' : ¬(s.station (stationOf g)).state = .dispatching := by
        intro hx; apply hd
        simpa [State.station, State.modifyEntry, State.modifyHead] using hx
      apply State.ext_fields <;> try rfl
      simp only [if_neg hd']
      simp only [State.setFlag_tracker, State.modifyEntry, State.modifyHead, State.setStation, State.setTracker]
      congr 2
      unfold Station.modifyHead
      split
      · split <;> rfl
      · rfl

/-- A head is released as `released` states it (R18). -/
theorem State.releaseHead_eq {s : State} {st : StationId} {r : BodyRecord} {rest : List BodyRecord}
    {cause : ReleaseCause} {outcome : BodyOutcome} (hq : (s.station st).queue = r :: rest) (ha : r.state = .active)
    (ho : releaseOutcome cause r = outcome) : s.releaseHead st cause = s.released st r rest outcome := by
  have hh : s.head? st = some r := Station.head?_eq_some.2 ⟨ha, rest, hq⟩
  have ho' : releaseOutcome cause { r with station := st } = outcome := by rw [← ho]; cases cause <;> rfl
  unfold State.releaseHead
  rw [hh]
  simp only [State.emitRelease]
  rw [State.mirror_eq]
  unfold State.released
  simp only [releasedRecord, ho']
  congr 1
  apply State.ext_fields <;> try rfl
  · simp only [hq, List.tail_cons]
    cases outcome <;> simp [State.station, State.disown, State.pushUplink, StationCounters.released]

/-! ## The release test (R16) -/

/-- A head that carries a held mark is not released. -/
theorem State.testRelease_of_held {s : State} {st : StationId} {r : BodyRecord} (h : s.head? st = some r)
    (hr : r.anyHeld = true) : s.testRelease st = s := by
  unfold State.testRelease
  rw [h]
  simp [BodyRecord.releasable, hr]

/-- A head with an entry that has not ended is not released. -/
theorem State.testRelease_of_work {s : State} {st : StationId} {r : BodyRecord} {e : SlotEntry} (h : s.head? st = some r)
    (he : e ∈ r.entries) (hn : e.ended = false) : s.testRelease st = s := by
  unfold State.testRelease
  rw [h]
  simp only
  rw [if_neg]
  simp only [BodyRecord.releasable, Bool.and_eq_true, List.all_eq_true, not_and]
  intro hx
  rw [hx e he] at hn
  cases hn

/-- A head with every entry ended and no held mark is released, and its station tests the next head (R18). -/
theorem State.testRelease_of_done {s : State} {st : StationId} {r : BodyRecord} {rest : List BodyRecord}
    (hq : (s.station st).queue = r :: rest) (ha : r.state = .active) (hb : r.bodyHeld = false)
    (he : ∀ e ∈ r.entries, e.ended = true ∧ e.held = false) :
    s.testRelease st =
      (s.released st r rest (if ∃ y ∈ r.entries, y.state = .faulted then .faulted else .clean)).testStation st := by
  have hh : s.head? st = some r := Station.head?_eq_some.2 ⟨ha, rest, hq⟩
  unfold State.testRelease
  rw [hh]
  simp only
  rw [if_pos, State.releaseHead_eq hq ha]
  · simp only [releaseOutcome, List.any_eq_true, beq_iff_eq]
  · simp only [BodyRecord.releasable, BodyRecord.anyHeld, hb, Bool.and_eq_true, List.all_eq_true, Bool.false_or,
      Bool.not_eq_true']
    exact ⟨fun e h => (he e h).1, List.any_eq_false.2 fun e h => by simp [(he e h).2]⟩

/-- The records behind a released head are tested as the station tests them (R18). -/
theorem State.startHeads_released (s : State) (st : StationId) (r : BodyRecord) (rest : List BodyRecord) (o : BodyOutcome) :
    State.startHeads st rest.length (s.released st r rest o) = (s.released st r rest o).testStation st := by
  have : ((s.released st r rest o).station st).queue = rest := by simp [State.released, State.station]
  rw [State.testStation, this]

/-- A head held for Unknown Style (R129). -/
theorem State.holdBody_eq {s : State} {st : StationId} {r : BodyRecord} {rest : List BodyRecord}
    (hq : (s.station st).queue = r :: rest) (ha : r.state = .active) : s.holdBody st =
      { s with
        tracker := { s.tracker with stations := s.tracker.stations.set st { s.station st with
          state := .held, queue := { r with bodyHeld := true } :: rest } }
        events := { s.events with flags := s.events.flags ||| (1#29 <<< st.val) } } := by
  simp only [State.holdBody, State.modifyHead]
  rw [Station.modifyHead_of_head? (r := r) (rest := rest) _ hq ha]
  refine State.ext_fields rfl rfl rfl rfl rfl ?_ rfl rfl rfl rfl rfl rfl rfl rfl rfl rfl
  simp [State.setStationState, State.setStation, State.setTracker, State.setFlag, State.setEvents, State.station]

/-- An IDLE station with an empty queue tests to no effect. -/
theorem State.testStation_released_nil {s : State} {st : StationId} {r : BodyRecord} {o : BodyOutcome} :
    (s.released st r [] o).testStation st = s.released st r [] o :=
  State.testStation_of_not_canStart (State.canStart_of_empty (by simp [State.released, State.station]))

/-- The head of a station in which an entry of it was changed. -/
theorem State.head?_of_station_modifyHead {s t : State} {st : StationId} {f : BodyRecord → BodyRecord} {r : BodyRecord}
    (ht : (t.station st).queue = ((s.station st).modifyHead f).queue) (hr : s.head? st = some r)
    (hf : ∀ r, (f r).state = r.state) : t.head? st = some (f r) := by
  have h1 : t.head? st = ((s.station st).modifyHead f).head? := by
    unfold State.head? Station.head?
    rw [ht]
  obtain ⟨ha, -⟩ := Station.head?_eq_some.1 hr
  rw [h1, Station.head?_modifyHead (by intro r' h'; rw [show (s.station st).head? = some r from hr] at h'; cases h'; rw [hf, ha]),
    show (s.station st).head? = some r from hr]
  rfl

/-- An entry of a record is among its entries, and its change among the changed record's. -/
theorem BodyRecord.mem_modifyEntry {r : BodyRecord} {p : Position} {e : SlotEntry} (h : r.entry? p = some e)
    (f : SlotEntry → SlotEntry) : f e ∈ (r.modifyEntry p f).entries := by
  have hm := List.mem_of_find?_eq_some h
  have hp : e.position = p := by simpa using List.find?_some h
  exact List.mem_map.2 ⟨e, hm, by rw [if_pos hp]⟩

/-- A head of which another entry works is not released by a change of one entry. -/
theorem BodyRecord.other_mem_modifyEntry {r : BodyRecord} {p : Position} {e : SlotEntry} (h : e ∈ r.entries)
    (hp : e.position ≠ p) (f : SlotEntry → SlotEntry) : e ∈ (r.modifyEntry p f).entries :=
  List.mem_map.2 ⟨e, h, by rw [if_neg hp]⟩

/-- A slot fault taken, where another entry works if its mode is PASS, releases no head. -/
theorem State.testRelease_faulted {s : State} {g : SlotId} {k : FaultKind} {e : SlotEntry} (he : s.entry? g = some e)
    (ho : e.outstanding = true) (hp : s.mode (stationOf g) k = .pass → s.othersWork g) :
    (s.faulted g k).testRelease (stationOf g) = s.faulted g k := by
  obtain ⟨r, hr, hre⟩ := State.head?_of_entry? he
  have hend : e.ended = false := by
    simp only [SlotEntry.outstanding, Bool.or_eq_true, beq_iff_eq] at ho
    rcases ho with h | h <;> simp [SlotEntry.ended, h]
  cases hk : s.mode (stationOf g) k with
  | off =>
    have : s.faulted g k = s := by simp only [State.faulted, hk]
    rw [this]
    exact State.testRelease_of_work hr (List.mem_of_find?_eq_some hre) hend
  | hold =>
    have hh : (s.faulted g k).head? (stationOf g) = some (r.modifyEntry (positionOf g) fun e =>
        { e with faults := e.faults ||| (1#8 <<< k.number.val), held := true }) := by
      refine State.head?_of_station_modifyHead (s := s) (f := fun r => r.modifyEntry (positionOf g) fun e =>
        { e with faults := e.faults ||| (1#8 <<< k.number.val), held := true }) ?_ hr fun r => rfl
      simp [State.faulted, hk, State.station]
    refine State.testRelease_of_held hh ?_
    simp only [BodyRecord.anyHeld, Bool.or_eq_true, List.any_eq_true]
    exact Or.inr ⟨_, BodyRecord.mem_modifyEntry hre _, rfl⟩
  | warn =>
    have hh : (s.faulted g k).head? (stationOf g) = some (r.modifyEntry (positionOf g) fun e =>
        { e with faults := e.faults ||| (1#8 <<< k.number.val), warned := true }) := by
      refine State.head?_of_station_modifyHead (s := s) (f := fun r => r.modifyEntry (positionOf g) fun e =>
        { e with faults := e.faults ||| (1#8 <<< k.number.val), warned := true }) ?_ hr fun r => rfl
      simp [State.faulted, hk, State.station]
    exact State.testRelease_of_work hh (BodyRecord.mem_modifyEntry hre _) hend
  | pass =>
    have hh : (s.faulted g k).head? (stationOf g) = some (r.modifyEntry (positionOf g) fun e =>
        { e with faults := e.faults ||| (1#8 <<< k.number.val), state := .faulted }) := by
      refine State.head?_of_station_modifyHead (s := s) (f := fun r => r.modifyEntry (positionOf g) fun e =>
        { e with faults := e.faults ||| (1#8 <<< k.number.val), state := .faulted }) ?_ hr fun r => rfl
      simp [State.faulted, hk, State.station]
    obtain ⟨r', hr', x, hx, hxp, hxe⟩ := hp hk
    rw [hr] at hr'
    cases hr'
    exact State.testRelease_of_work hh (BodyRecord.other_mem_modifyEntry hx hxp _) hxe

/-! ## A head selected at its slots (R13, R95, R97) -/

@[simp] theorem State.resolvedAt_tracker (s : State) (g : SlotId) (x : Resolution) :
    (s.resolvedAt g x).tracker = s.tracker := rfl

/-- What a resolution leaves outside the slot entry (R51, R68, R85, R86). -/
theorem State.afterResolution_eq (s : State) (g : SlotId) (x : Resolution) : s.afterResolution g x = s.resolvedAt g x := by
  unfold State.afterResolution State.setFlagIf State.resolvedAt
  cases x.consulted && x.wearUnconfirmed <;> cases x.warned <;> simp <;> rfl

/-- One slot of a head whose resolution finds no fault (R13, R95, R97). -/
theorem State.startSlot_of_no_fault {v : State} {g : SlotId} {x : Resolution} {r : BodyRecord} {rest : List BodyRecord}
    (hq : (v.station (stationOf g)).queue = r :: rest) (ha : r.state = .active)
    (hp : ∀ e ∈ r.entries, e.position ≠ positionOf g) (hx : v.resolution? g = some x) (hf : x.fault = none) :
    v.startSlot g =
      { v with
        resolver := ⟨[], []⟩
        tracker := { v.tracker with stations := v.tracker.stations.set (stationOf g) { v.station (stationOf g) with
          queue := { r with entries := r.entries ++ [x.selected g (v.tagState g).next] } :: rest } }
        ports := { v.ports with
          cellOwn := (v.ports.cellOwn.filter fun y => y.slot != g) ++
            [⟨g, ⟨(v.robotNode? g).getD 0, v.filter.ownNode, v.filter.protocolType⟩,
              .select ⟨(v.tagState g).next, r.bodyId, x.program.getD 0, (v.station (stationOf g)).dry, x.dressRequested,
                x.wearUnconfirmed, x.groups⟩⟩] }
        tags := v.tags.set g { v.tagState g with
          next := nextTag (v.tagState g).next, current := (v.tagState g).next, owned := true }
        guns := v.guns.set g { v.gun g with dressDue := (v.gun g).dressDue || (x.consulted && x.dressRequested) }
        events := { v.events with
          flags := (v.events.flags ||| (if x.consulted && x.wearUnconfirmed then 1#29 <<< 19 else 0)) |||
            (if x.warned then 1#29 <<< (4 + (stationOf g).val) else 0) } } := by
  have hh : v.head? (stationOf g) = some r := Station.head?_eq_some.2 ⟨ha, rest, hq⟩
  unfold State.startSlot
  rw [hx]
  simp only [hf]
  rw [State.afterResolution_eq]
  simp only [State.addEntry, State.modifyHead]
  generalize hw0 : v.resolvedAt g x = w0
  have hst : w0.station (stationOf g) = v.station (stationOf g) := by rw [← hw0]; rfl
  rw [hst, Station.modifyHead_of_head? _ hq ha]
  generalize hw : w0.setStation (stationOf g) _ = w
  have hm : w.station (stationOf g) =
      { v.station (stationOf g) with queue := { r with entries := r.entries ++ [entryOf (positionOf g) x] } :: rest } := by
    rw [← hw, State.station_setStation_self]
  have hwt : w.tagState g = v.tagState g := by rw [← hw, ← hw0]; rfl
  have hh2 : w.head? (stationOf g) = some { r with entries := r.entries ++ [entryOf (positionOf g) x] } := by
    rw [State.head?, hm]
    exact Station.head?_eq_some.2 ⟨ha, rest, rfl⟩
  have he2 : w.entry? g = some (entryOf (positionOf g) x) := by
    rw [State.entry?_of_head? hh2, BodyRecord.entry?, List.find?_append]
    rw [List.find?_eq_none.2 (by intro e he; simpa using hp e he)]
    simp [entryOf]
  unfold State.sendSelect
  rw [hh2, he2]
  simp only [hm, hwt, State.modifyEntry, State.modifyHead]
  generalize hu : ((w.dropCell g).pushCell g _).setTag g _ = u
  have hus : u.station (stationOf g) = w.station (stationOf g) := by rw [← hu]; rfl
  rw [hus, hm,
    Station.modifyHead_of_head? (r := { r with entries := r.entries ++ [entryOf (positionOf g) x] }) (rest := rest) _
      rfl ha]
  subst hu hw hw0
  have hmap : r.entries.map (fun e =>
      if e.position = positionOf g then { e with tag := some (v.tagState g).next, state := .selected } else e) =
      r.entries := by
    rw [List.map_congr_left (g := id) (by intro e he; rw [if_neg (hp e he)]; rfl), List.map_id]
  apply State.ext_fields <;> try rfl
  simp only [State.setStation, State.setTracker, BodyRecord.modifyEntry, List.map_append]
  rw [hmap]
  simp [entryOf, Resolution.selected, State.station]

/-- The head `r` of a station with some slots selected, as `selecting` gives it, with the station's state as it was. -/
def State.selectedSoFar (s : State) (st : StationId) (r : BodyRecord) (rest : List BodyRecord)
    (found : List (SlotId × Resolution)) : State :=
  { s.selecting st r rest found with
    resolver := if found = [] then s.resolver else ⟨[], []⟩
    tracker := { s.tracker with stations := s.tracker.stations.set st { s.station st with
      queue := { r with entries := found.map fun y => y.2.selected y.1 (s.tagState y.1).next } :: rest } } }

variable {s : State} {st : StationId} {r : BodyRecord} {rest : List BodyRecord} {found : List (SlotId × Resolution)}

/-- With no slot selected yet the state is as it was. -/
theorem State.selectedSoFar_nil (hq : (s.station st).queue = r :: rest) (he : r.entries = []) :
    s.selectedSoFar st r rest [] = s := by
  have hr : { r with entries := ([] : List (SlotId × Resolution)).map fun y => y.2.selected y.1 (s.tagState y.1).next } = r := by
    rw [List.map_nil, ← he]
  refine State.ext_fields rfl rfl rfl ?_ rfl ?_ rfl rfl ?_ ?_ rfl rfl ?_ rfl rfl rfl
  · simp [State.selectedSoFar, State.selecting]
  · simp only [State.selectedSoFar]
    rw [hr, ← hq]
    exact (congrArg State.tracker (State.setStation_self s st))
  · ext1 i hi; simp [State.selectedSoFar, State.selecting, State.gun]
  · ext1 i hi; simp [State.selectedSoFar, State.selecting, State.tagState]
  · simp [State.selectedSoFar, State.selecting]

@[simp] theorem State.selectedSoFar_station (s : State) (st : StationId) (r : BodyRecord) (rest : List BodyRecord) (found) :
    (s.selectedSoFar st r rest found).station st = { s.station st with
      queue := { r with entries := found.map fun y => y.2.selected y.1 (s.tagState y.1).next } :: rest } := by
  simp [State.selectedSoFar, State.station]

theorem State.selectedSoFar_mode (k : FaultKind) : (s.selectedSoFar st r rest found).mode st k = s.mode st k :=
  State.mode_congr (by simp) k

/-- The gun of a slot not selected yet. -/
theorem State.selectedSoFar_gun {g : SlotId} (hg : g ∉ found.map (·.1)) :
    (s.selectedSoFar st r rest found).gun g = s.gun g := by
  simp only [State.gun, State.selectedSoFar, State.selecting]
  simp only [Fin.getElem_fin, Vector.getElem_ofFn]
  rw [if_neg]
  rintro ⟨y, hy, h, -⟩
  exact hg (List.mem_map.2 ⟨y, hy, h⟩)

/-- The tag state of a slot not selected yet. -/
theorem State.selectedSoFar_tagState {g : SlotId} (hg : g ∉ found.map (·.1)) :
    (s.selectedSoFar st r rest found).tagState g = s.tagState g := by
  simp only [State.tagState, State.selectedSoFar, State.selecting]
  simp only [Fin.getElem_fin, Vector.getElem_ofFn]
  rw [if_neg hg]

/-- Marks set one after another are the marks set at once. -/
theorem or_marks (f a b : BitVec 29) {p p' q q' w c : Prop} [Decidable p] [Decidable p'] [Decidable q] [Decidable q']
    [Decidable w] [Decidable c] (h1 : p' ↔ p ∨ w) (h2 : q' ↔ q ∨ c) :
    ((f ||| ((if p then a else 0) ||| (if q then b else 0))) ||| (if c then b else 0)) ||| (if w then a else 0) =
      f ||| ((if p' then a else 0) ||| (if q' then b else 0)) := by
  apply BitVec.eq_of_getLsbD_eq
  intro i _
  rw [Bool.eq_iff_iff]
  by_cases hp : p <;> by_cases hq : q <;> by_cases hw : w <;> by_cases hc : c <;>
    simp only [h1, h2, hp, hq, hw, hc, if_true, if_false, or_self, or_true, true_or, BitVec.getLsbD_or, Bool.or_eq_true,
      BitVec.ofNat_eq_ofNat, BitVec.getLsbD_zero, Bool.false_eq_true] <;> tauto

/-- A slot is its station and position. -/
theorem slot_eq_of {g g' : SlotId} (h : stationOf g = stationOf g') (hp : positionOf g = positionOf g') : g = g' := by
  rw [← slotOf_stationOf_positionOf g, h, hp, slotOf_stationOf_positionOf]

/-- One slot more selected. -/
theorem State.startSlot_selectedSoFar {g : SlotId} {x : Resolution} (hst : stationOf g = st) (ha : r.state = .active)
    (hg : g ∉ found.map (·.1)) (hs : ∀ y ∈ found, stationOf y.1 = st)
    (hx : (s.selectedSoFar st r rest found).resolution? g = some x) (hf : x.fault = none) :
    (s.selectedSoFar st r rest found).startSlot g = s.selectedSoFar st r rest (found ++ [(g, x)]) := by
  have hpos : ∀ y ∈ found, positionOf y.1 ≠ positionOf g := fun y hy h =>
    hg (by rw [← slot_eq_of ((hs y hy).trans hst.symm) h]; exact List.mem_map_of_mem hy)
  subst hst
  rw [State.startSlot_of_no_fault (r := { r with entries := found.map fun y => y.2.selected y.1 (s.tagState y.1).next })
    (rest := rest) (by rw [State.selectedSoFar_station]) ha ?_ hx hf]
  · rw [State.selectedSoFar_tagState hg, State.selectedSoFar_gun hg]
    have hrn : (s.selectedSoFar (stationOf g) r rest found).robotNode? g = s.robotNode? g := rfl
    rw [hrn]
    have hne : ∀ y ∈ found, y.1 ≠ g := fun y hy h => hg (List.mem_map.2 ⟨y, hy, h⟩)
    rw [State.selectedSoFar_station]
    refine State.ext_fields rfl rfl rfl ?_ rfl ?_ rfl ?_ ?_ ?_ rfl rfl ?_ rfl rfl rfl
    · simp only [State.selectedSoFar, State.selecting, List.filter_append, List.filter_filter, List.map_append,
        List.map_cons, List.map_nil, List.append_assoc]
      congr 2
      · apply List.filter_congr
        intro y _
        by_cases h : y.slot = g
        · simp [h]
        · have : (y.slot != g) = true := by simpa using h
          rw [this]
          simp [h]
      · rw [List.filter_eq_self.2]
        intro a ha
        obtain ⟨y, hy, rfl⟩ := List.mem_map.1 ha
        simpa using hne y hy
    · simp [State.selectedSoFar, State.selecting, State.station]
    · simp [State.selectedSoFar]
    · ext1 i hi
      simp only [State.selectedSoFar, State.selecting]
      by_cases hig : i = g.val
      · subst hig
        simp only [Vector.getElem_set_self, Vector.getElem_ofFn]
        have h1 : (∃ y ∈ found ++ [(g, x)], y.1 = g ∧ y.2.consulted = true ∧ y.2.dressRequested = true) ↔
            x.consulted = true ∧ x.dressRequested = true := by
          constructor
          · rintro ⟨y, hy, h1, h2⟩
            rcases List.mem_append.1 hy with hy | hy
            · exact absurd h1 (hne y hy)
            · cases List.mem_singleton.1 hy; exact h2
          · exact fun h => ⟨(g, x), by simp, rfl, h⟩
        by_cases h : x.consulted = true ∧ x.dressRequested = true
        · rw [if_pos (h1.2 h)]; simp [h.1, h.2]
        · rw [if_neg (fun k => h (h1.1 k))]
          have : (x.consulted && x.dressRequested) = false := by
            rw [Bool.eq_false_iff]; intro k; exact h (by simpa using k)
          rw [this]; simp
      · rw [Vector.getElem_set_ne _ _ (Ne.symm hig)]
        simp only [Vector.getElem_ofFn]
        refine if_congr ⟨fun ⟨y, hy, h⟩ => ⟨y, List.mem_append_left _ hy, h⟩, ?_⟩ rfl rfl
        rintro ⟨y, hy, h⟩
        rcases List.mem_append.1 hy with hy | hy
        · exact ⟨y, hy, h⟩
        · cases List.mem_singleton.1 hy
          exact absurd (congrArg Fin.val h.1).symm hig
    · ext1 i hi
      simp only [State.selectedSoFar, State.selecting]
      by_cases hig : i = g.val
      · subst hig
        simp [nextTag]
      · rw [Vector.getElem_set_ne _ _ (Ne.symm hig)]
        simp only [Vector.getElem_ofFn]
        refine if_congr ?_ rfl rfl
        simp only [List.map_append, List.mem_append, List.map_cons, List.map_nil, List.mem_singleton]
        exact ⟨Or.inl, fun h => h.resolve_right fun k => hig (congrArg Fin.val k)⟩
    · simp only [State.selectedSoFar, State.selecting]
      have e1 : (∃ y ∈ found ++ [(g, x)], y.2.warned = true) ↔ (∃ y ∈ found, y.2.warned = true) ∨ x.warned = true := by
        simp [or_and_right, exists_or]
      have e2 : (∃ y ∈ found ++ [(g, x)], y.2.consulted = true ∧ y.2.wearUnconfirmed = true) ↔
          (∃ y ∈ found, y.2.consulted = true ∧ y.2.wearUnconfirmed = true) ∨
            (x.consulted && x.wearUnconfirmed) = true := by
        simp [or_and_right, exists_or]
      rw [or_marks _ _ _ e1 e2]
  · intro e he
    simp only [List.mem_map] at he
    obtain ⟨y, hy, rfl⟩ := he
    exact hpos y hy

/-- The head of a station selected slot by slot, where no resolution finds a fault (R13). -/
theorem State.foldl_startSlot (ha : r.state = .active) {row : Nat} (hrow : r.row = some row) (l : List SlotId)
    (pre : List (SlotId × Resolution)) (hl : l.Nodup) (hs : ∀ g ∈ l, stationOf g = st)
    (hps : ∀ y ∈ pre, stationOf y.1 = st) (hd : ∀ g ∈ l, g ∉ pre.map (·.1))
    (res : SlotId → Option Resolution)
    (hres : ∀ g ∈ l, res g =
      resolve (s.banks.tables r.bankTag) (s.gun g) (s.mode st .wearOverrun != .off) row r.variant r.options g)
    (hf : ∀ g ∈ l, ∀ x, res g = some x → x.fault = none) :
    l.foldl State.startSlot (s.selectedSoFar st r rest pre) =
      s.selectedSoFar st r rest (pre ++ l.filterMap fun g => (res g).map fun x => (g, x)) := by
  induction l generalizing pre with
  | nil => simp
  | cons g l ih =>
    have hg : g ∉ pre.map (·.1) := hd g (by simp)
    have hst : stationOf g = st := hs g (by simp)
    have hr : (s.selectedSoFar st r rest pre).resolution? g = res g := by
      have hh : (s.selectedSoFar st r rest pre).head? st =
          some { r with entries := pre.map fun y => y.2.selected y.1 (s.tagState y.1).next } := by
        rw [State.head?, State.selectedSoFar_station]
        exact Station.head?_eq_some.2 ⟨ha, rest, rfl⟩
      unfold State.resolution?
      rw [hst, hh]
      simp only [hrow]
      rw [State.selectedSoFar_gun hg, State.selectedSoFar_mode, hres g (by simp)]
      rfl
    rw [List.foldl_cons]
    rw [List.nodup_cons] at hl
    cases hx : res g with
    | none =>
      have : (s.selectedSoFar st r rest pre).startSlot g = s.selectedSoFar st r rest pre := by
        unfold State.startSlot; rw [hr, hx]
      rw [this, ih pre hl.2 (fun g h => hs g (by simp [h])) hps (fun g h => hd g (by simp [h]))
        (fun g h => hres g (by simp [h])) (fun g h => hf g (by simp [h]))]
      simp [hx]
    | some x =>
      rw [State.startSlot_selectedSoFar hst ha hg hps (hr.trans hx) (hf g (by simp) x hx)]
      rw [ih (pre ++ [(g, x)]) hl.2 (fun g h => hs g (by simp [h])) ?_ ?_
        (fun g h => hres g (by simp [h])) (fun g h => hf g (by simp [h]))]
      · simp [hx]
      · intro y hy
        rcases List.mem_append.1 hy with hy | hy
        · exact hps y hy
        · cases List.mem_singleton.1 hy; exact hst
      · intro g' hg'
        simp only [List.map_append, List.mem_append, not_or, List.map_cons, List.map_nil, List.mem_singleton]
        exact ⟨hd g' (by simp [hg']), fun e => hl.1 (e ▸ hg')⟩

/-- The configured slots of a station have no repeats and are its own. -/
theorem State.configuredSlots_nodup (s : State) (st : StationId) : (s.configuredSlots st).Nodup := by
  apply List.Nodup.filter
  rw [List.nodup_map_iff_inj_on (by decide)]
  intro p _ q _ h
  rw [← positionOf_slotOf st p, h, positionOf_slotOf]

theorem State.stationOf_of_mem_configuredSlots {s : State} {st : StationId} {g : SlotId} (h : g ∈ s.configuredSlots st) :
    stationOf g = st := by
  obtain ⟨p, -, rfl⟩ := List.mem_map.1 (List.mem_filter.1 h).1
  exact stationOf_slotOf st p

/-- Resolutions read the tables, the guns, the shape and the station's modes alone. -/
theorem State.resolutions_congr {s t : State} {st : StationId} (h1 : t.tracker.stationCount = s.tracker.stationCount)
    (h2 : t.tracker.slotCounts = s.tracker.slotCounts) (hb : t.banks = s.banks) (hg : t.guns = s.guns)
    (hm : (t.station st).modes = (s.station st).modes) (bank : BankId) (row variant : Nat) (options : BitVec 16) :
    t.resolutions st bank row variant options = s.resolutions st bank row variant options := by
  unfold State.resolutions
  have hc : t.slotConfigured = s.slotConfigured := by
    funext g; simp [State.slotConfigured, h1, h2]
  have hgun : t.gun = s.gun := by funext g; simp [State.gun, hg]
  rw [hc, hb, hgun, State.mode_congr hm]

/-- `selecting` overwrites the station's state, its queue and the ready limit in force for its head. -/
theorem State.selecting_setStation (s : State) (st : StationId) (x : StationState) (l : Nat) (q : List BodyRecord)
    (r : BodyRecord) (rest : List BodyRecord) (found : List (SlotId × Resolution)) :
    (s.setStation st { s.station st with state := x, headLimit := l, queue := q }).selecting st r rest found =
      s.selecting st r rest found := by
  unfold State.selecting
  rw [State.station_setStation_self]
  refine State.ext_fields rfl rfl rfl rfl rfl ?_ rfl rfl rfl rfl rfl rfl rfl rfl rfl rfl
  simp [State.setStation, State.setTracker]
  rfl

/-- A head resolved slot by slot without a fault and settled, where its ready limit is in force (R13, R15). -/
theorem State.settleHead_foldl_startSlot {row : Nat} (hq : (s.station st).queue = r :: rest) (ha : r.state = .active)
    (he : r.entries = []) (hrow : r.row = some row) (hb : r.bodyHeld = false)
    (hl : (s.station st).headLimit = (s.station st).readyLimit)
    (hf : ∀ y ∈ s.resolutions st r.bankTag row r.variant r.options, y.2.fault = none)
    (hn : s.resolutions st r.bankTag row r.variant r.options ≠ []) :
    ((s.configuredSlots st).foldl State.startSlot s).settleHead st =
      s.selecting st r rest (s.resolutions st r.bankTag row r.variant r.options) := by
  have hall : (List.finRange 8) = allPositions := by decide
  have hfold := State.foldl_startSlot (s := s) (st := st) (r := r) (rest := rest) ha hrow (s.configuredSlots st) []
    (s.configuredSlots_nodup st) (fun g h => State.stationOf_of_mem_configuredSlots h) (by simp) (by simp)
    (fun g => resolve (s.banks.tables r.bankTag) (s.gun g) (s.mode st .wearOverrun != .off) row r.variant r.options g)
    (fun _ _ => rfl) (by
      intro g hg x hx
      exact hf (g, x) (by
        unfold State.resolutions
        rw [hall]
        exact List.mem_filterMap.2 ⟨g, hg, by simp [hx]⟩))
  rw [State.selectedSoFar_nil hq he, List.nil_append] at hfold
  rw [hfold]
  have hdef : ((s.configuredSlots st).filterMap fun g =>
      (resolve (s.banks.tables r.bankTag) (s.gun g) (s.mode st .wearOverrun != .off) row r.variant r.options g).map
        fun x => (g, x)) = s.resolutions st r.bankTag row r.variant r.options := by
    unfold State.resolutions; rw [hall]; rfl
  rw [hdef]
  generalize s.resolutions st r.bankTag row r.variant r.options = found at *
  have hh2 : (s.selectedSoFar st r rest found).head? st =
      some { r with entries := found.map fun y => y.2.selected y.1 (s.tagState y.1).next } := by
    rw [State.head?, State.selectedSoFar_station]
    exact Station.head?_eq_some.2 ⟨ha, rest, rfl⟩
  unfold State.settleHead
  rw [hh2]
  simp only
  obtain ⟨y, hy⟩ := List.exists_mem_of_ne_nil _ hn
  rw [if_neg, if_neg]
  · refine State.ext_fields rfl rfl rfl rfl rfl ?_ rfl ?_ rfl rfl rfl rfl rfl rfl rfl rfl
    · simp [State.setStationState, State.selecting, State.selectedSoFar, State.setStation, State.setTracker, State.station]
      have hl' : s.tracker.stations[st.val].headLimit = s.tracker.stations[st.val].readyLimit := by
        simpa [State.station] using hl
      rw [hl']
    · simp [State.setStationState, State.selecting, State.selectedSoFar, State.setStation, State.setTracker, hn]
  · simp [BodyRecord.anyHeld, hb, Resolution.selected]
  · simp only [BodyRecord.releasable, Bool.and_eq_true, List.all_eq_true, not_and]
    intro h
    have := h _ (List.mem_map_of_mem hy)
    simp [Resolution.selected, SlotEntry.ended] at this

/-- A head under way whose style row resolves, at one slot or more, without a fault (R13, R15). -/
theorem State.runHead_of_no_fault {row : Nat} (hq : (s.station st).queue = r :: rest) (ha : r.state = .active)
    (he : r.entries = []) (hrow : r.row = some row) (hb : r.bodyHeld = false)
    (hf : ∀ y ∈ s.resolutions st r.bankTag row r.variant r.options, y.2.fault = none)
    (hn : s.resolutions st r.bankTag row r.variant r.options ≠ []) :
    s.runHead st = s.selecting st r rest (s.resolutions st r.bankTag row r.variant r.options) := by
  have hh : s.head? st = some r := Station.head?_eq_some.2 ⟨ha, rest, hq⟩
  unfold State.runHead
  rw [hh]
  simp only [hrow, Option.isNone_some, Bool.false_eq_true, if_false]
  have hres : (s.latchReady st).resolutions st r.bankTag row r.variant r.options =
      s.resolutions st r.bankTag row r.variant r.options :=
    State.resolutions_congr (s := s) (t := s.latchReady st) rfl rfl rfl rfl (by simp [State.latchReady]) ..
  have h := State.settleHead_foldl_startSlot (s := s.latchReady st) (st := st) (rest := rest)
    (by simp [State.latchReady, hq]) ha he hrow hb (by simp [State.latchReady]) (by rw [hres]; exact hf)
    (by rw [hres]; exact hn)
  rw [hres] at h
  refine Eq.trans h ?_
  exact State.selecting_setStation s st _ _ _ _ _ _

/-! ## CLEAR STATION entry by entry (R136, R137, R139) -/

/-- A selection called off where the slot has one. -/
theorem State.cancelSlot_eq_ite (s : State) (g : SlotId) :
    s.cancelSlot g = if (s.tagState g).current ≠ 0 then s.calledOff g else s := by
  split
  · next h => exact State.cancelSlot_eq h
  · next h => simp only [State.cancelSlot, not_not.1 h, if_true]

/-- One held entry under SKIP is left as `skipped` states it (R139). -/
theorem State.skipEntry_eq (s : State) (g : SlotId) : s.skipEntry g = s.skipped g := by
  unfold State.skipEntry State.skipped
  cases s.entry? g with
  | none => rfl
  | some e =>
    simp only
    by_cases hh : e.held = false
    · simp only [hh, if_true]
    · simp only [hh]
      cases hs : e.state <;> simp [State.cancelSlot_eq_ite]

/-- Two changes of one entry are one change. -/
theorem State.modifyEntry_modifyEntry (s : State) (g : SlotId) {f h : SlotEntry → SlotEntry}
    (hf : ∀ e, (f e).position = e.position) :
    (s.modifyEntry g f).modifyEntry g h = s.modifyEntry g fun e => h (f e) := by
  unfold State.modifyEntry State.modifyHead
  rw [State.station_setStation_self, State.setStation_setStation]
  congr 1
  unfold Station.modifyHead
  cases hq : (s.station (stationOf g)).queue with
  | nil => simp [hq]
  | cons r rest =>
    by_cases ha : r.state = .active
    · simp only [ha, if_true, BodyRecord.modifyEntry, List.map_map]
      congr 3
      refine List.map_congr_left fun e _ => ?_
      simp only [Function.comp]
      split
      · next h => rw [if_pos ((hf e).trans h)]
      · next h => rfl
    · simp [hq, ha]

/-- A re-selection leaves what `reselected` states (R101). -/
theorem State.reselect_eq (s : State) (g : SlotId) {r : BodyRecord} {e : SlotEntry} (hr : s.head? (stationOf g) = some r)
    (he : s.entry? g = some e) : s.reselect g = s.reselected g := by
  unfold State.reselect State.reselected
  simp only [hr, he]
  unfold State.sendSelect
  generalize hv : (s.dropCell g).setTag g _ = v
  have h1 : v.head? (stationOf g) = s.head? (stationOf g) := by rw [← hv]; rfl
  have h2 : v.entry? g = s.entry? g := by rw [← hv]; rfl
  rw [h1, h2, hr, he]
  simp only
  rw [State.modifyEntry_modifyEntry]
  rotate_left
  · exact fun _ => rfl
  have ht : v.tagState g = { (s.tagState g).stopTimers with
      cancelled := if (s.tagState g).current = 0 then (s.tagState g).cancelled else (s.tagState g).current } := by
    rw [← hv]; simp [State.tagState]
  rw [ht]
  congr 1
  subst hv
  refine State.ext_fields rfl rfl rfl ?_ rfl rfl rfl rfl rfl ?_ rfl rfl rfl rfl rfl rfl
  · have hfil : (s.ports.cellOwn.filter fun t => t.slot != g) = s.ports.cellOwn.filter fun x => x.slot ≠ g :=
      List.filter_congr fun x _ => by by_cases h : x.slot = g <;> simp [h]
    rw [show s.ports.cellOwn.filter (fun x => decide (x.slot ≠ g)) =
      (s.ports.cellOwn.filter fun t => t.slot != g).filter fun t => t.slot != g from
        hfil.symm.trans (by rw [List.filter_filter]; exact List.filter_congr fun x _ => (Bool.and_self _).symm)]
    rfl
  · simp only [State.setTag, State.setTags, State.dropCell, State.pushCell, State.setPorts, Vector.set_set]
    rfl

/-- The head and the entry of a slot, the entry changed. -/
theorem State.head?_modifyEntry {s : State} {g : SlotId} {r : BodyRecord} (f : SlotEntry → SlotEntry)
    (hr : s.head? (stationOf g) = some r) :
    (s.modifyEntry g f).head? (stationOf g) = some (r.modifyEntry (positionOf g) f) :=
  State.head?_of_station_modifyHead (s := s) (f := fun r => r.modifyEntry (positionOf g) f)
    (by simp [State.modifyEntry, State.modifyHead]) hr fun _ => rfl

theorem State.entry?_modifyEntry {s : State} {g : SlotId} {e : SlotEntry} {f : SlotEntry → SlotEntry}
    (hf : ∀ e, (f e).position = e.position) (he : s.entry? g = some e) : (s.modifyEntry g f).entry? g = some (f e) := by
  obtain ⟨r, hr, hre⟩ := State.head?_of_entry? he
  rw [State.entry?_of_head? (State.head?_modifyEntry f hr), BodyRecord.entry?_modifyEntry hf, hre]
  rfl

/-- Heads and entries are read from the tracker. -/
theorem State.head?_congr {s t : State} (h : t.tracker = s.tracker) (st : StationId) : t.head? st = s.head? st := by
  unfold State.head? State.station
  rw [h]

theorem State.entry?_congr {s t : State} (h : t.tracker = s.tracker) (g : SlotId) : t.entry? g = s.entry? g := by
  unfold State.entry?
  rw [State.head?_congr h]

/-- A held entry in WAITING or SELECTED under RETRY is left as `retriedSelection` states it (R137). -/
theorem State.retrySelection_eq {s : State} {g : SlotId} {r : BodyRecord} {e : SlotEntry}
    (hr : s.head? (stationOf g) = some r) (he : s.entry? g = some e) :
    s.retrySelection g e = s.retriedSelection g r e := by
  unfold State.retrySelection State.retriedSelection State.resolution?
  simp only [hr]
  cases r.row with
  | none => rfl
  | some row =>
    simp only [Option.bind_some]
    cases resolve (s.banks.tables r.bankTag) (s.gun g) (s.mode (stationOf g) .wearOverrun != .off) row r.variant
      r.options g with
    | none => rfl
    | some x =>
      simp only [State.afterResolution_eq, State.mirrorFault_eq]
      generalize hw : s.resolvedAt g x = w
      have hwt : w.tracker = s.tracker := by rw [← hw, State.resolvedAt_tracker]
      have hr' : w.head? (stationOf g) = some r := (State.head?_congr hwt _).trans hr
      have he' : w.entry? g = some e := (State.entry?_congr hwt _).trans he
      have hsel : ∀ {f : SlotEntry → SlotEntry} {u : State}, (∀ e, (f e).position = e.position) → u.tracker = (w.modifyEntry g f).tracker →
          u.reselect g = u.reselected g := fun hf hu =>
        State.reselect_eq _ _ ((State.head?_congr hu _).trans (State.head?_modifyEntry _ hr'))
          ((State.entry?_congr hu _).trans (State.entry?_modifyEntry hf he'))
      cases x.fault with
      | none =>
        simp only
        rw [State.modifyEntry_modifyEntry]
        rotate_left
        · exact fun _ => rfl
        exact hsel (f := fun y => { y.reresolved x with held := false, warned := true }) (fun _ => rfl) rfl
      | some k =>
        simp only
        have hc : (w.modifyEntry g fun y => y.reresolved x).cancelIfSelected g e =
            (if e.state = .selected ∧ (s.tagState g).current ≠ 0 then w.calledOff g else w).modifyEntry g
              fun y => y.reresolved x := by
          unfold State.cancelIfSelected
          by_cases hs : e.state = .selected
          · simp only [hs, if_true, true_and]
            rw [State.cancelSlot_eq_ite]
            have : (w.modifyEntry g fun y => y.reresolved x).tagState g = s.tagState g := by rw [← hw]; rfl
            rw [this]
            split
            · rfl
            · rfl
          · simp only [hs, if_false, false_and]
        have hb : addFault 0 k = 1#8 <<< k.number.val := by simp [addFault]
        cases s.mode (stationOf g) k <;> simp only [hb]
        · rw [hc, State.modifyEntry_modifyEntry]
          · rfl
          · exact fun _ => rfl
        · rw [hc, State.modifyEntry_modifyEntry]
          · rfl
          · exact fun _ => rfl
        · rw [State.modifyEntry_modifyEntry]
          rotate_left
          · exact fun _ => rfl
          exact hsel (f := fun y => { y.reresolved x with
            faults := 1#8 <<< k.number.val, state := .selected, held := false, warned := true }) (fun _ => rfl)
            (State.faultOffered_tracker ..)
        · rw [hc, State.modifyEntry_modifyEntry]
          · rfl
          · exact fun _ => rfl

/-- One held entry under RETRY is left as `retried` states it (R136, R137). -/
theorem State.retryEntry_eq (s : State) (g : SlotId) : s.retryEntry g = s.retried g := by
  unfold State.retryEntry State.retried
  cases he : s.entry? g with
  | none => cases s.head? (stationOf g) <;> rfl
  | some e =>
    obtain ⟨r, hr, hre⟩ := State.head?_of_entry? he
    simp only [hr, State.retrySelection_eq hr he]
    rfl

/-! ## Withdrawals and the end of a Section Hold (R12, R22, R134) -/

/-- The tests follow one of the orders of the four stations (R12). -/
theorem stationOrder_perm (k : Fin 24) : (stationOrder k).Perm [0, 1, 2, 3] := by
  have h : ∀ l ∈ stationOrders, l.Perm [0, 1, 2, 3] := fun l hl => (List.mem_permutations'.1 hl).trans (by decide)
  apply h
  unfold stationOrder
  have hl : stationOrders.length = 24 := by decide
  rw [List.getD_eq_getElem?_getD, List.getElem?_eq_getElem (by omega)]
  exact List.getElem_mem _

/-- A command whose effect ends in the tests that follow the end of a Section Hold. -/
theorem State.settlesTo_of {s settled tested : State} {i : Instr} {finish : State → State}
    (h : exec i s = .next (settleNotice s (finish (testAfterHold s settled tested)))) :
    s.settlesTo i settled tested finish := by
  refine ⟨fun hx => ?_, fun h1 h2 => ⟨_, stationOrder_perm (Config.stationOrder tested.free), ?_⟩⟩
  · rw [h, testAfterHold, if_neg]
    rcases hx with h1 | h1 <;> simp [h1]
  · rw [h, testAfterHold, if_pos (by simp [h1, h2])]
    rfl

/-- A command whose effect ends in the release test of R16. -/
theorem State.finishesTo_of {s u : State} {i : Instr} {st : StationId}
    (h : exec i s = .next (settleNotice s (u.testRelease st))) : s.finishesTo i st u := by
  intro r rest hq ha
  have hh : u.head? st = some r := Station.head?_eq_some.2 ⟨ha, rest, hq⟩
  split
  · next hx =>
    rw [h]
    rcases hx with hb | ⟨y, hy, he | he⟩
    · rw [State.testRelease_of_held hh (by simp [BodyRecord.anyHeld, hb])]
    · rw [State.testRelease_of_work hh hy he]
    · rw [State.testRelease_of_held hh]
      simp only [BodyRecord.anyHeld, Bool.or_eq_true, List.any_eq_true]
      exact Or.inr ⟨y, hy, he⟩
  · next hx =>
    have hd := State.testRelease_of_done hq ha (by simpa using fun hb => hx (.inl hb)) fun e he =>
      ⟨by simpa using fun hb => hx (.inr ⟨e, he, .inl hb⟩), by simpa using fun hb => hx (.inr ⟨e, he, .inr hb⟩)⟩
    refine ⟨by rw [h, hd], fun hrest => ?_⟩
    subst hrest
    rw [h, hd, State.testStation_released_nil]

/-- One entry of a withdrawn head is given up as `givenUp` states it (R22). -/
theorem State.withdrawEntry_eq (s : State) (g : SlotId) : s.withdrawEntry g = s.givenUp g := by
  unfold State.withdrawEntry State.givenUp
  cases he : s.entry? g with
  | none => rfl
  | some e =>
    have hc : s.cancelSlot g = if (s.tagState g).current = 0 then s else s.calledOff g := by
      split
      · next h0 => simp only [State.cancelSlot, h0, if_true]
      · next h0 => exact State.cancelSlot_eq h0
    cases hs : e.state <;> simp only [hs, hc]
    unfold State.setFlagIf
    cases e.held
    · simp [State.flagged]; rfl
    · rfl

/-- `released` overwrites the station's queue. -/
theorem State.released_setStation (s : State) (st : StationId) (q : List BodyRecord) (r : BodyRecord)
    (rest : List BodyRecord) (o : BodyOutcome) :
    (s.setStation st { s.station st with queue := q }).released st r rest o = s.released st r rest o := by
  unfold State.released
  rw [State.station_setStation_self]
  refine congrArg (State.offered · st _) ?_
  refine State.ext_fields rfl rfl rfl rfl rfl ?_ rfl rfl rfl rfl rfl rfl rfl rfl rfl rfl
  simp [State.setStation, State.setTracker]

/-- A head withdrawn (R22). -/
theorem State.abortHead_eq {s : State} {st : StationId} {r kept : BodyRecord} {rest rest' : List BodyRecord}
    (hq : (s.station st).queue = r :: rest') (ha : r.state = .active)
    (hu : (((r.entries.map fun x => slotOf st x.position).foldl State.givenUp s).station st).queue = kept :: rest)
    (hk : kept.state = .active) :
    s.abortHead st = ((r.entries.map fun x => slotOf st x.position).foldl State.givenUp s).released st
      { kept with bodyHeld := false } rest .aborted := by
  have hh : s.head? st = some r := Station.head?_eq_some.2 ⟨ha, _, hq⟩
  unfold State.abortHead State.entrySlots
  rw [hh]
  simp only
  have hf : State.withdrawEntry = State.givenUp := by funext s g; exact State.withdrawEntry_eq s g
  rw [hf]
  generalize (r.entries.map fun x => slotOf st x.position).foldl State.givenUp s = u at *
  unfold State.modifyHead
  rw [Station.modifyHead_of_head? _ hu hk]
  rw [State.releaseHead_eq (r := { kept with bodyHeld := false }) (rest := rest) (by simp) hk rfl]
  exact State.released_setStation ..

/-! ## A head started whose slots may find faults (R13, R15, R126) -/

@[simp] theorem State.faultOffered_tags (s : State) (g : SlotId) (k : FaultKind) : (s.faultOffered g k).tags = s.tags := by
  unfold State.faultOffered
  split <;> simp

@[simp] theorem State.offered_banks (s : State) (st : StationId) (c : CopyContent) : (s.offered st c).banks = s.banks := by
  obtain ⟨_, _, _, h⟩ := s.offered_frame st c
  rw [h]

@[simp] theorem State.faultOffered_banks (s : State) (g : SlotId) (k : FaultKind) :
    (s.faultOffered g k).banks = s.banks := by
  unfold State.faultOffered
  split <;> simp

/-- A SELECT built for a slot leaves what `nextSelected` states (R95, R97, R98). -/
theorem State.sendSelect_eq (s : State) (g : SlotId) : s.sendSelect g = s.nextSelected g := by
  unfold State.sendSelect State.nextSelected
  cases s.head? (stationOf g) with
  | none => rfl
  | some r =>
    cases s.entry? g with
    | none => rfl
    | some e =>
      have hfil : (s.ports.cellOwn.filter fun t => t.slot != g) = s.ports.cellOwn.filter fun x => x.slot ≠ g :=
        List.filter_congr fun x _ => by by_cases h : x.slot = g <;> simp [h]
      simp only [← hfil]
      rfl

/-- One slot of a starting head is left as `started` states it (R13, R126). -/
theorem State.startSlot_eq (s : State) (g : SlotId) : s.startSlot g =
    match s.resolution? g with
    | none => s
    | some x => s.started g x := by
  unfold State.startSlot State.started
  cases s.resolution? g with
  | none => rfl
  | some x =>
    have hb : ∀ k : FaultKind, addFault 0 k = 1#8 <<< k.number.val := fun k => by simp [addFault]
    simp only [State.afterResolution_eq, State.sendSelect_eq, State.mirrorFault_eq, hb]
    cases x.fault with
    | none => rfl
    | some k =>
      simp only
      cases s.mode (stationOf g) k <;> rfl

/-- Two states whose tables, and whose tag states and guns at every slot but one, agree. -/
structure State.agreeBeside (s t : State) (g : SlotId) : Prop where
  banks : t.banks = s.banks
  tags  : ∀ g', g' ≠ g → t.tagState g' = s.tagState g'
  guns  : ∀ g', g' ≠ g → t.gun g' = s.gun g'

/-- A slot of a starting head touches no tag state and no gun of another slot, and no table. -/
theorem State.agreeBeside_started (s : State) (g : SlotId) (x : Resolution) : s.agreeBeside (s.started g x) g := by
  have hset : ∀ {α : Type} (v : Vector α 32) (a : α) (g' : SlotId), g' ≠ g → (v.set g a)[g'] = v[g'] :=
    fun v a g' h => Vector.getElem_set_ne _ _ (fun k => h (Fin.ext k.symm))
  have hn : ∀ u : State, s.agreeBeside u g → s.agreeBeside (u.nextSelected g) g := by
    intro u hu
    unfold State.nextSelected
    split
    · refine ⟨hu.banks, fun g' h => ?_, fun g' h => hu.guns g' h⟩
      exact (hset _ _ g' h).trans (hu.tags g' h)
    · exact hu
  have hj : ∀ (st : StationId) (f : BodyRecord → BodyRecord), s.agreeBeside ((s.resolvedAt g x).modifyHead st f) g :=
    fun st f => ⟨rfl, fun _ _ => rfl, fun g' h => hset _ _ g' h⟩
  have hp : ∀ (u : State) (k : FaultKind), s.agreeBeside u g → s.agreeBeside (u.faultOffered g k) g := by
    intro u k hu
    refine ⟨?_, fun g' h => ?_, fun g' h => ?_⟩
    · rw [State.faultOffered_banks]; exact hu.banks
    · unfold State.tagState; rw [State.faultOffered_tags]; exact hu.tags g' h
    · unfold State.gun; rw [State.faultOffered_guns]; exact hu.guns g' h
  have hf : ∀ (u : State) (m : BitVec 29) (k : FaultKind), s.agreeBeside u g →
      s.agreeBeside ((u.flagged m).faultOffered g k) g := fun u m k hu => hp _ k ⟨hu.banks, hu.tags, hu.guns⟩
  unfold State.started
  cases x.fault with
  | none => exact hn _ (hj _ _)
  | some k =>
    cases hm : s.mode (stationOf g) k <;> simp only [hm]
    case warn => exact hn _ (hf _ _ _ (hj _ _))
    case pass => exact hp _ _ (hj _ _)
    case hold => exact hf _ _ _ (hj _ _)
    case off => exact hf _ _ _ (hj _ _)

/-- The station after a SELECT built for the last entry of its head. -/
theorem State.nextSelected_station {u : State} {g : SlotId} {e : SlotEntry}
    (hq : (u.station (stationOf g)).queue = { r with entries := r.entries ++ [e] } :: rest) (ha : r.state = .active)
    (hp : ∀ y ∈ r.entries, y.position ≠ positionOf g) (he : e.position = positionOf g) :
    (u.nextSelected g).station (stationOf g) = { u.station (stationOf g) with
      queue := { r with entries := r.entries ++ [{ e with tag := some (u.tagState g).next, state := .selected }] } :: rest } := by
  have hh : u.head? (stationOf g) = some { r with entries := r.entries ++ [e] } := Station.head?_eq_some.2 ⟨ha, rest, hq⟩
  have hx : u.entry? g = some e := by
    rw [State.entry?_of_head? hh, BodyRecord.entry?, List.find?_append,
      List.find?_eq_none.2 (by intro e he; simpa using hp e he)]
    simp [he]
  unfold State.nextSelected
  rw [hh, hx]
  simp only [State.modifyEntry, State.modifyHead, State.station_setStation_self]
  have hu : ∀ p t, State.station { u with ports := p, tags := t } (stationOf g) = u.station (stationOf g) :=
    fun _ _ => rfl
  rw [hu, Station.modifyHead_of_head? _ hq ha]
  have hmap : r.entries.map (fun y =>
      if y.position = positionOf g then { y with tag := some (u.tagState g).next, state := .selected } else y) =
      r.entries := by
    rw [List.map_congr_left (g := id) (by intro e he; rw [if_neg (hp e he)]; rfl), List.map_id]
  simp only [BodyRecord.modifyEntry, List.map_append, hmap, List.map_cons, List.map_nil, he, if_true]

/-- The station after one slot of its starting head (R13, R126). -/
theorem State.started_station {v : State} {g : SlotId} (x : Resolution)
    (hq : (v.station (stationOf g)).queue = r :: rest) (ha : r.state = .active)
    (hp : ∀ y ∈ r.entries, y.position ≠ positionOf g) :
    (v.started g x).station (stationOf g) = { v.station (stationOf g) with
      queue := { r with entries := r.entries ++ [v.startedEntry g x] } :: rest } := by
  have hst : (v.resolvedAt g x).station (stationOf g) = v.station (stationOf g) := rfl
  have hj : ∀ e : SlotEntry, ((v.resolvedAt g x).modifyHead (stationOf g) fun r =>
      { r with entries := r.entries ++ [e] }).station (stationOf g) = { v.station (stationOf g) with queue := { r with entries := r.entries ++ [e] } :: rest } := by
    intro e
    rw [State.modifyHead, State.station_setStation_self, hst, Station.modifyHead_of_head? _ hq ha]
  have hf : ∀ (u : State) (m : BitVec 29) (k : FaultKind) (st : StationId),
      ((u.flagged m).faultOffered g k).station st = u.station st := by
    intro u m k st; unfold State.station; rw [State.faultOffered_tracker]; rfl
  have ho : ∀ (u : State) (k : FaultKind) (st : StationId), (u.faultOffered g k).station st = u.station st := by
    intro u k st; unfold State.station; rw [State.faultOffered_tracker]
  unfold State.started State.startedEntry
  cases x.fault with
  | none =>
    rw [State.nextSelected_station (by rw [hj]) ha hp (by rfl), hj]
    rfl
  | some k =>
    simp only
    cases v.mode (stationOf g) k <;> simp only
    case off => rw [hf, hj]; rfl
    case hold => rw [hf, hj]; rfl
    case pass => rw [ho, hj]; rfl
    case warn =>
      have hw : ∀ e : SlotEntry, ((((v.resolvedAt g x).modifyHead (stationOf g) fun r =>
          { r with entries := r.entries ++ [e] }).flagged (1#29 <<< (4 + (stationOf g).val))).faultOffered g k).tagState g =
            v.tagState g := by
        intro e; unfold State.tagState; rw [State.faultOffered_tags]; rfl
      rw [State.nextSelected_station (by rw [hf, hj]) ha hp (by rfl), hf, hj, hw]
      rfl

/-- A starting head with some slots resolved: its entries, and what later slots still read. -/
structure State.startedSoFar (s v : State) (st : StationId) (r : BodyRecord) (rest : List BodyRecord)
    (found : List (SlotId × Resolution)) : Prop where
  station : v.station st = { s.station st with
    queue := { r with entries := found.map fun y => s.startedEntry y.1 y.2 } :: rest }
  banks   : v.banks = s.banks
  tags    : ∀ g, g ∉ found.map (·.1) → v.tagState g = s.tagState g
  guns    : ∀ g, g ∉ found.map (·.1) → v.gun g = s.gun g

/-- What a slot of a starting head is left with is read from its tag state and its station's modes. -/
theorem State.startedEntry_congr {s v : State} {g : SlotId} (ht : v.tagState g = s.tagState g)
    (hm : (v.station (stationOf g)).modes = (s.station (stationOf g)).modes) (x : Resolution) :
    v.startedEntry g x = s.startedEntry g x := by
  unfold State.startedEntry
  simp only [ht, State.mode_congr hm]

/-- One slot more of a starting head. -/
theorem State.startedSoFar.started {s v : State} {g : SlotId} (h : s.startedSoFar v (stationOf g) r rest found)
    (ha : r.state = .active) (hg : g ∉ found.map (·.1)) (hs : ∀ y ∈ found, stationOf y.1 = stationOf g) (x : Resolution) :
    s.startedSoFar (v.started g x) (stationOf g) r rest (found ++ [(g, x)]) := by
  have hpos : ∀ e ∈ found.map (fun y => s.startedEntry y.1 y.2), e.position ≠ positionOf g := by
    intro e he
    obtain ⟨y, hy, rfl⟩ := List.mem_map.1 he
    have : (s.startedEntry y.1 y.2).position = positionOf y.1 := by
      unfold State.startedEntry
      cases y.2.fault with
      | none => rfl
      | some k => simp only; cases s.mode (stationOf y.1) k <;> rfl
    rw [this]
    intro k
    exact hg (by rw [← slot_eq_of (hs y hy) k]; exact List.mem_map_of_mem hy)
  have hb := State.agreeBeside_started v g x
  have hne : ∀ g', g' ∉ (found ++ [(g, x)]).map (·.1) → g' ∉ found.map (·.1) ∧ g' ≠ g := by
    intro g' h'
    simpa [not_or] using h'
  refine ⟨?_, hb.banks.trans h.banks, fun g' h' => ?_, fun g' h' => ?_⟩
  · rw [State.started_station (r := { r with entries := found.map fun y => s.startedEntry y.1 y.2 }) x
      (by rw [h.station]) ha hpos, h.station,
      State.startedEntry_congr (h.tags g hg) (by rw [h.station]) x]
    simp
  · exact (hb.tags g' (hne g' h').2).trans (h.tags g' (hne g' h').1)
  · exact (hb.guns g' (hne g' h').2).trans (h.guns g' (hne g' h').1)

/-- A head started slot by slot (R13): the slots with a plan in ascending position, each as `started` states it. -/
theorem State.startedSoFar.foldl {s : State} (ha : r.state = .active) {row : Nat} (hrow : r.row = some row) (l : List SlotId)
    (pre : List (SlotId × Resolution)) (v : State) (hv : s.startedSoFar v st r rest pre) (hl : l.Nodup)
    (hs : ∀ g ∈ l, stationOf g = st) (hps : ∀ y ∈ pre, stationOf y.1 = st) (hd : ∀ g ∈ l, g ∉ pre.map (·.1))
    (more : List (SlotId × Resolution))
    (hmore : more = l.filterMap fun g => (resolve (s.banks.tables r.bankTag) (s.gun g) (s.mode st .wearOverrun != .off) row
      r.variant r.options g).map fun x => (g, x)) :
    l.foldl State.startSlot v = more.foldl (fun u y => u.started y.1 y.2) v ∧
      s.startedSoFar (l.foldl State.startSlot v) st r rest (pre ++ more) := by
  induction l generalizing pre v more with
  | nil => subst hmore; simpa using hv
  | cons g l ih =>
    have hg := hd g (by simp)
    have hst := hs g (by simp)
    subst hst
    rw [List.nodup_cons] at hl
    have hr : v.resolution? g = resolve (s.banks.tables r.bankTag) (s.gun g) (s.mode (stationOf g) .wearOverrun != .off) row
        r.variant r.options g := by
      have hh : v.head? (stationOf g) = some { r with entries := pre.map fun y => s.startedEntry y.1 y.2 } := by
        rw [State.head?, hv.station]
        exact Station.head?_eq_some.2 ⟨ha, rest, rfl⟩
      unfold State.resolution?
      rw [hh]
      simp only [hrow]
      rw [hv.guns g hg, hv.banks, State.mode_congr (s := s) (by rw [hv.station])]
    rw [List.foldl_cons, State.startSlot_eq, hr]
    cases hx : resolve (s.banks.tables r.bankTag) (s.gun g) (s.mode (stationOf g) .wearOverrun != .off) row r.variant
      r.options g with
    | none =>
      refine ih pre v hv hl.2 (fun g h => hs g (by simp [h])) hps (fun g h => hd g (by simp [h])) more ?_
      rw [hmore, List.filterMap_cons, hx]
      rfl
    | some x =>
      rw [List.filterMap_cons, hx] at hmore
      have := ih (pre ++ [(g, x)]) (v.started g x) (hv.started ha hg hps x) hl.2 (fun g h => hs g (by simp [h]))
        (by intro y hy; rcases List.mem_append.1 hy with h | h <;> [exact hps y h; (cases List.mem_singleton.1 h; rfl)])
        (by
          intro g' h'
          simp only [List.map_append, List.mem_append, not_or, List.map_cons, List.map_nil, List.mem_singleton]
          exact ⟨hd g' (by simp [h']), fun e => hl.1 (e ▸ h')⟩) _ rfl
      rw [hmore]
      simpa using this

/-- `startedHead` overwrites the station's queue. -/
theorem State.startedHead_setStation (s : State) (st : StationId) (q : List BodyRecord) (r : BodyRecord)
    (rest : List BodyRecord) (found : List (SlotId × Resolution)) :
    (s.setStation st { s.station st with queue := q }).startedHead st r rest found = s.startedHead st r rest found := by
  unfold State.startedHead
  rw [State.station_setStation_self]
  congr 1
  refine State.ext_fields rfl rfl rfl rfl rfl ?_ rfl rfl rfl rfl rfl rfl rfl rfl rfl rfl
  simp [State.setStation, State.setTracker]

/-- A head under way whose style row resolves (R13, R15): what `startedHead` states, settled, and the station before that. -/
theorem State.runHead_eq {row : Nat} (hq : (s.station st).queue = r :: rest) (ha : r.state = .active)
    (he : r.entries = []) (hrow : r.row = some row) (hf : s.resolutions st r.bankTag row r.variant r.options = found) :
    s.runHead st = (s.startedHead st r rest found).settleHead st ∧
      (s.startedHead st r rest found).station st = { s.station st with
        headLimit := (s.station st).readyLimit
        queue := { r with entries := found.map fun y => s.startedEntry y.1 y.2 } :: rest } := by
  have hh : s.head? st = some r := Station.head?_eq_some.2 ⟨ha, rest, hq⟩
  have hall : (List.finRange 8) = allPositions := by decide
  have hres : found = (s.configuredSlots st).filterMap fun g => (resolve ((s.latchReady st).banks.tables r.bankTag)
      ((s.latchReady st).gun g) ((s.latchReady st).mode st .wearOverrun != .off) row r.variant r.options g).map
        fun x => (g, x) := by
    rw [← hf, State.mode_congr (s := s) (t := s.latchReady st) (by simp [State.latchReady])]
    unfold State.resolutions; rw [hall]; rfl
  have hinit : s.latchReady st = { s with tracker := { s.tracker with stations := s.tracker.stations.set st { s.station st with
      headLimit := (s.station st).readyLimit
      queue := r :: rest } } } := by
    rw [← hq]; rfl
  have hr0 : { r with
      entries := ([] : List (SlotId × Resolution)).map fun y => (s.latchReady st).startedEntry y.1 y.2 } = r := by
    rw [List.map_nil, ← he]
  have h0 : (s.latchReady st).startedSoFar (s.latchReady st) st r rest [] := by
    refine ⟨?_, rfl, fun _ _ => rfl, fun _ _ => rfl⟩
    rw [hr0]
    simp only [State.latchReady, State.station_setStation_self]
    rw [← hq]
  obtain ⟨h1, h2⟩ := h0.foldl ha hrow (s.configuredSlots st) [] _ (s.configuredSlots_nodup st)
    (fun g h => State.stationOf_of_mem_configuredSlots h) (by simp) (by simp) found hres
  have hfold : (s.configuredSlots st).foldl State.startSlot (s.latchReady st) = s.startedHead st r rest found := by
    rw [h1, hinit]; rfl
  refine ⟨?_, ?_⟩
  · unfold State.runHead
    rw [hh]
    simp only [hrow, Option.isNone_some, Bool.false_eq_true, if_false]
    rw [hfold]
  · rw [← hfold, h2.station, List.nil_append]
    have hl : ∀ y : SlotId × Resolution, (s.latchReady st).startedEntry y.1 y.2 = s.startedEntry y.1 y.2 := by
      intro y
      refine State.startedEntry_congr (s := s) (v := s.latchReady st) rfl ?_ _
      by_cases h : stationOf y.1 = st
      · rw [h]; simp [State.latchReady]
      · simp only [State.latchReady]; rw [State.station_setStation_ne _ _ h]
    simp only [hl]
    simp [State.latchReady]

/-- A head all of whose entries have ended without a held mark is released as it settles, else its station is HELD or DISPATCHING
(R15, R17). -/
theorem State.settleHead_eq (hq : (s.station st).queue = r :: rest) (ha : r.state = .active) (hb : r.bodyHeld = false) :
    s.settleHead st =
      if ∀ e ∈ r.entries, e.ended = true ∧ e.held = false then
        s.released st r rest (if ∃ e ∈ r.entries, e.state = .faulted then .faulted else .clean)
      else { s with tracker := { s.tracker with stations := s.tracker.stations.set st { s.station st with
        state := if ∃ e ∈ r.entries, e.held = true then .held else .dispatching } } } := by
  have hh : s.head? st = some r := Station.head?_eq_some.2 ⟨ha, rest, hq⟩
  have hrel : r.releasable = true ↔ ∀ e ∈ r.entries, e.ended = true ∧ e.held = false := by
    simp only [BodyRecord.releasable, BodyRecord.anyHeld, hb, Bool.and_eq_true, List.all_eq_true, Bool.false_or,
      Bool.not_eq_true', List.any_eq_false]
    constructor
    · exact fun h e he => ⟨h.1 e he, by simpa using h.2 e he⟩
    · exact fun h => ⟨fun e he => (h e he).1, fun e he => by simp [(h e he).2]⟩
  unfold State.settleHead
  rw [hh]
  simp only
  by_cases h : r.releasable = true
  · rw [if_pos h, if_pos (hrel.1 h), State.releaseHead_eq hq ha]
    simp only [releaseOutcome, List.any_eq_true, beq_iff_eq]
  · rw [if_neg h, if_neg (fun k => h (hrel.2 k))]
    have : r.anyHeld = true ↔ ∃ e ∈ r.entries, e.held = true := by
      simp [BodyRecord.anyHeld, hb]
    simp only [this]
    rfl

end Sys2Proof.Machine
end

