-- ==== Sys2Proof/Laws/Octets.lean ====
section
/-! SUPPORT. Octets written and read back: multi-octet fields, and the header of a telegram. -/

namespace Sys2Proof.Octets

/-- The octets of a 16-bit field, joined, are the field. -/
theorem be2_join (v : BitVec 16) : v.extractLsb' 8 8 ++ v.extractLsb' 0 8 = v := by
  rw [BitVec.extractLsb'_append_extractLsb'_eq_extractLsb' (by rfl)]
  exact BitVec.extractLsb'_eq_self

/-- The octets of a 32-bit field, joined, are the field. -/
theorem be4_join (v : BitVec 32) :
    v.extractLsb' 24 8 ++ v.extractLsb' 16 8 ++ v.extractLsb' 8 8 ++ v.extractLsb' 0 8 = v := by
  rw [BitVec.extractLsb'_append_extractLsb'_eq_extractLsb' (by rfl),
    BitVec.extractLsb'_append_extractLsb'_eq_extractLsb' (by rfl),
    BitVec.extractLsb'_append_extractLsb'_eq_extractLsb' (by rfl)]
  exact BitVec.extractLsb'_eq_self

/-- A 16-bit field reads back. -/
@[simp] theorem read2_be2 (v : BitVec 16) (rest : List Octet) : read2 (be2 v ++ rest) = some (v, rest) := by
  simp [read2, be2, be2_join]

/-- A 32-bit field reads back. -/
@[simp] theorem read4_be4 (v : BitVec 32) (rest : List Octet) : read4 (be4 v ++ rest) = some (v, rest) := by
  simp [read4, be4, be4_join]

@[simp] theorem length_be2 (v : BitVec 16) : (be2 v).length = 2 := rfl

@[simp] theorem length_be4 (v : BitVec 32) : (be4 v).length = 4 := rfl

end Sys2Proof.Octets

namespace Sys2Proof.Machine

open Octets

/-- The header of a telegram reads back, with the octets after it. -/
theorem readTelegram_header (version kind hi lo : Octet) (destination source : Node) (after : List Octet) :
    readTelegram ([version, kind, hi, lo] ++ be2 destination ++ be2 source ++ after) =
      some ⟨version, kind, hi ++ lo, destination, source, after⟩ := by
  simp [readTelegram, read1, read2, be2, be2_join]

/-- The guard reads a kind SELECT or CANCEL at the Uplink port of a LIVE part alone (R149). -/
theorem guards_eq_true {s : State} {port : Port} {t : Telegram} :
    s.guards port t = true ↔ s.agent.partState = .live ∧ port = .uplink ∧ (t.kind = 0x10 ∨ t.kind = 0x11) ∧
      ∃ g, s.slotOfNode? t.destination = some g ∧ (s.station (stationOf g)).state.guarded = true := by
  unfold State.guards
  cases s.slotOfNode? t.destination <;> simp [and_assoc]

/-- A telegram for the own node is a frame error exactly where a condition of R147 holds: its version, its body length, its kind,
that kind's least body, its source node, or a port or source that R148 does not accept. -/
theorem checkTelegram_eq_none {s : State} {port : Port} {t : Telegram} : s.checkTelegram port t = none ↔
    t.version ≠ 1 ∨ t.after.length < t.bodyLength.toNat ∨
      (t.bodyLength.toNat < t.after.length ∧ minimumPayload < telegramHeader + t.after.length) ∨
      ∀ k, kindOf? t.kind = some k →
        t.bodyLength.toNat < k.minimumBody ∨ s.badSource t.source = true ∨ s.accepts k port t.source = false := by
  unfold State.checkTelegram
  by_cases h1 : t.version ≠ 1
  · simp only [h1, ne_eq, not_false_eq_true, if_true, true_or]
  by_cases h2 : t.after.length < t.bodyLength.toNat
  · simp only [h1, h2, if_true, if_false, true_or, or_true]
  by_cases h3 : t.bodyLength.toNat < t.after.length ∧ minimumPayload < telegramHeader + t.after.length
  · simp only [h1, h2, h3, and_self, if_true, if_false, true_or, or_true]
  simp only [h1, h2, h3, if_false, false_or]
  cases kindOf? t.kind with
  | none => simp
  | some k =>
    by_cases h4 : t.bodyLength.toNat < k.minimumBody <;> cases s.badSource t.source <;>
      cases hx : s.accepts k port t.source <;> simp [h4]

end Sys2Proof.Machine
end

