-- ==== Sys2Proof/Laws/Tables.lean ====
section
/-! SUPPORT. The tables of a bank: every write keeps the canonical form, a write reads back, and every other entry stands. -/

namespace Sys2Proof.Machine

/-! ## One table -/

section OneTable

variable {α : Type}

theorem tableWf_iff {t : List (Nat × α)} : tableWf t = true ↔ t.Pairwise fun x y => x.1 < y.1 := by
  simp [tableWf]

/-- The entries an insertion can list: the new one and those of the table. -/
theorem mem_tableInsert {i : Nat} {x : α} {t : List (Nat × α)} {e : Nat × α} (h : e ∈ tableInsert i x t) :
    e = (i, x) ∨ e ∈ t := by
  induction t with
  | nil => simpa [tableInsert] using h
  | cons a rest ih =>
    obtain ⟨j, y⟩ := a
    simp only [tableInsert] at h
    split at h
    · simpa using h
    · split at h
      · rcases List.mem_cons.1 h with h | h
        · exact .inl h
        · exact .inr (List.mem_cons_of_mem _ h)
      · rcases List.mem_cons.1 h with h | h
        · exact .inr (h ▸ List.mem_cons_self)
        · rcases ih h with h | h
          · exact .inl h
          · exact .inr (List.mem_cons_of_mem _ h)

/-- A record inserted keeps the canonical form. -/
theorem tableWf_tableInsert {i : Nat} {x : α} {t : List (Nat × α)} (h : tableWf t = true) :
    tableWf (tableInsert i x t) = true := by
  rw [tableWf_iff] at h ⊢
  induction t with
  | nil => simp [tableInsert]
  | cons a rest ih =>
    obtain ⟨j, y⟩ := a
    rw [List.pairwise_cons] at h
    simp only [tableInsert]
    split
    · next hij =>
      refine List.pairwise_cons.2 ⟨?_, List.pairwise_cons.2 h⟩
      intro e he
      rcases List.mem_cons.1 he with he | he
      · subst he; exact hij
      · exact Nat.lt_trans hij (h.1 e he)
    · split
      · next hij => subst hij; exact List.pairwise_cons.2 h
      · next h1 h2 =>
        refine List.pairwise_cons.2 ⟨?_, ih h.2⟩
        intro e he
        rcases mem_tableInsert he with he | he
        · subst he; simp only; omega
        · exact h.1 e he

/-- An entry written or emptied keeps the canonical form. -/
theorem tableWf_tablePut {t : List (Nat × α)} (h : tableWf t = true) (i : Nat) (r : Option α) :
    tableWf (tablePut t i r) = true := by
  cases r with
  | some x => exact tableWf_tableInsert h
  | none =>
    rw [tableWf_iff] at h ⊢
    exact h.filter _

/-- Two tables merged at an index keep the canonical form. -/
theorem tableWf_mergeAt {s t : List (Nat × α)} (cut : Nat) (hs : tableWf s = true) (ht : tableWf t = true) :
    tableWf (mergeAt cut s t) = true := by
  rw [tableWf_iff] at hs ht ⊢
  refine List.pairwise_append.2 ⟨hs.filter _, ht.filter _, ?_⟩
  intro x hx y hy
  have h1 := of_decide_eq_true (List.mem_filter.1 hx).2
  have h2 := of_decide_eq_true (List.mem_filter.1 hy).2
  omega

/-- In canonical form an entry is listed exactly where it reads so. -/
theorem tableGet_eq_some {t : List (Nat × α)} (h : tableWf t = true) {i : Nat} {x : α} :
    tableGet t i = some x ↔ (i, x) ∈ t := by
  rw [tableWf_iff] at h
  unfold tableGet
  induction t with
  | nil => simp
  | cons a rest ih =>
    obtain ⟨j, y⟩ := a
    rw [List.pairwise_cons] at h
    by_cases e : j = i
    · subst e
      simp only [List.find?_cons, beq_self_eq_true, Option.map_some, Option.some.injEq, List.mem_cons, Prod.mk.injEq,
        true_and]
      constructor
      · intro hx; exact .inl hx.symm
      · rintro (hx | hx)
        · exact hx.symm
        · exact absurd (h.1 _ hx) (Nat.lt_irrefl _)
    · have e' : (j == i) = false := by simpa using e
      simp only [List.find?_cons, e', List.mem_cons, Prod.mk.injEq]
      rw [ih h.2]
      constructor
      · exact .inr
      · rintro (hx | hx)
        · exact absurd hx.1.symm e
        · exact hx

/-- An inserted record reads back. -/
theorem tableGet_tableInsert_self (i : Nat) (x : α) (t : List (Nat × α)) : tableGet (tableInsert i x t) i = some x := by
  induction t with
  | nil => simp [tableGet, tableInsert]
  | cons a rest ih =>
    obtain ⟨j, y⟩ := a
    simp only [tableInsert]
    split
    · simp [tableGet]
    · split
      · simp [tableGet]
      · next h1 h2 =>
        have : (j == i) = false := by simpa using fun e => h2 e.symm
        simpa [tableGet, List.find?_cons, this] using ih

/-- An insertion leaves every other entry. -/
theorem tableGet_tableInsert_ne {i n : Nat} (x : α) (t : List (Nat × α)) (h : n ≠ i) :
    tableGet (tableInsert i x t) n = tableGet t n := by
  have hi : (i == n) = false := by simpa using fun e => h e.symm
  induction t with
  | nil => simp [tableGet, tableInsert, hi]
  | cons a rest ih =>
    obtain ⟨j, y⟩ := a
    simp only [tableInsert]
    split
    · simp [tableGet, hi]
    · split
      · next hij => subst hij; simp [tableGet, hi]
      · by_cases e : (j == n) = true
        · simp [tableGet, e]
        · have e : (j == n) = false := by simpa using e
          simpa [tableGet, List.find?_cons, e] using ih

/-- An entry written or emptied reads back. -/
@[simp] theorem tableGet_tablePut_self (t : List (Nat × α)) (i : Nat) (r : Option α) :
    tableGet (tablePut t i r) i = r := by
  cases r with
  | some x => exact tableGet_tableInsert_self i x t
  | none =>
    simp only [tablePut, tableGet, Option.map_eq_none_iff, List.find?_eq_none, List.mem_filter]
    intro e he
    simpa using he.2

/-- An entry written or emptied leaves every other entry. -/
theorem tableGet_tablePut_ne (t : List (Nat × α)) {i n : Nat} (r : Option α) (h : n ≠ i) :
    tableGet (tablePut t i r) n = tableGet t n := by
  cases r with
  | some x => exact tableGet_tableInsert_ne x t h
  | none =>
    simp only [tablePut, tableGet]
    congr 1
    induction t with
    | nil => rfl
    | cons a rest ih =>
      by_cases e : a.1 = i
      · have e1 : (a.1 == n) = false := by simpa using fun e2 => h (e2.symm.trans e)
        rw [List.filter_cons_of_neg (by simp [e]), List.find?_cons, e1]
        exact ih
      · rw [List.filter_cons_of_pos (by simpa using e), List.find?_cons, List.find?_cons, ih]

end OneTable

/-! ## The six tables -/

theorem Tables.wf_iff {t : Tables} : t.wf = true ↔ tableWf t.styles = true ∧ tableWf t.matrix = true ∧
    tableWf t.overlays = true ∧ tableWf t.plans = true ∧ tableWf t.schedules = true ∧ tableWf t.curves = true ∧
    ∀ e ∈ t.matrix, e.2 ≠ emptyCell := by
  simp [Tables.wf, and_assoc]

theorem Tables.wf_empty : Tables.empty.wf = true := by decide

/-- A matrix cell written keeps the empty cell unlisted. -/
theorem listed_tablePut {m : List (Nat × MatrixCell)} (h : ∀ e ∈ m, e.2 ≠ emptyCell) (i : Nat) (c : MatrixCell) :
    ∀ e ∈ tablePut m i (listedCell c), e.2 ≠ emptyCell := by
  intro e he
  unfold listedCell at he
  split at he
  · exact h e (List.mem_filter.1 he).1
  · next hc =>
    rcases mem_tableInsert he with he | he
    · subst he; exact hc
    · exact h e he

/-- An entry of any table written or emptied keeps the canonical form of a bank. -/
theorem Tables.wf_putRecord {t : Tables} (h : t.wf = true) (k : TableId) (i : Nat) (r : Option Record) :
    (t.putRecord k i r).wf = true := by
  rw [Tables.wf_iff] at h ⊢
  obtain ⟨h1, h2, h3, h4, h5, h6, h7⟩ := h
  cases r with
  | none =>
    cases k <;> simp only [Tables.putRecord]
    · exact ⟨tableWf_tablePut h1 _ _, h2, h3, h4, h5, h6, h7⟩
    · exact ⟨h1, tableWf_tablePut h2 _ _, h3, h4, h5, h6, fun e he => h7 e (List.mem_filter.1 he).1⟩
    · exact ⟨h1, h2, tableWf_tablePut h3 _ _, h4, h5, h6, h7⟩
    · exact ⟨h1, h2, h3, tableWf_tablePut h4 _ _, h5, h6, h7⟩
    · exact ⟨h1, h2, h3, h4, tableWf_tablePut h5 _ _, h6, h7⟩
    · exact ⟨h1, h2, h3, h4, h5, tableWf_tablePut h6 _ _, h7⟩
  | some x =>
    cases x <;> simp only [Tables.putRecord]
    · exact ⟨tableWf_tablePut h1 _ _, h2, h3, h4, h5, h6, h7⟩
    · exact ⟨h1, tableWf_tablePut h2 _ _, h3, h4, h5, h6, listed_tablePut h7 _ _⟩
    · exact ⟨h1, h2, tableWf_tablePut h3 _ _, h4, h5, h6, h7⟩
    · exact ⟨h1, h2, h3, tableWf_tablePut h4 _ _, h5, h6, h7⟩
    · exact ⟨h1, h2, h3, h4, tableWf_tablePut h5 _ _, h6, h7⟩
    · exact ⟨h1, h2, h3, h4, h5, tableWf_tablePut h6 _ _, h7⟩

/-- A run written keeps the canonical form. -/
theorem Tables.wf_putRun {t : Tables} (h : t.wf = true) (k : TableId) (first : Nat) (l : List (Option Record)) :
    (t.putRun k first l).wf = true := by
  induction l generalizing t first with
  | nil => exact h
  | cons r rest ih => exact ih (Tables.wf_putRecord h k first r) _

/-- A block written keeps the canonical form. -/
theorem Tables.wf_putBlock {t : Tables} (h : t.wf = true) (b : Block) (n : Nat) (l : List CheckedRecord) :
    (t.putBlock b n l).wf = true := by
  induction l generalizing t n with
  | nil => exact h
  | cons r rest ih =>
    cases r with
    | ok r => exact ih (Tables.wf_putRecord h .matrix _ _) _
    | error _ => exact ih h _

/-- A copy under way keeps the canonical form of its target. -/
theorem Tables.wf_copyTables {s t : Tables} (n : Nat) (hs : s.wf = true) (ht : t.wf = true) :
    (copyTables n s t).wf = true := by
  rw [Tables.wf_iff] at hs ht ⊢
  obtain ⟨h1, h2, h3, h4, h5, h6, h7⟩ := hs
  obtain ⟨k1, k2, k3, k4, k5, k6, k7⟩ := ht
  refine ⟨tableWf_mergeAt _ h1 k1, tableWf_mergeAt _ h2 k2, tableWf_mergeAt _ h3 k3, tableWf_mergeAt _ h4 k4,
    tableWf_mergeAt _ h5 k5, tableWf_mergeAt _ h6 k6, ?_⟩
  intro e he
  rcases List.mem_append.1 he with he | he
  · exact h7 e (List.mem_filter.1 he).1
  · exact k7 e (List.mem_filter.1 he).1

/-- One record of a load keeps the canonical form. -/
theorem wf_loadRecord {flash : List Octet} {l : Loader} {t : Tables} (h : t.wf = true) :
    (loadRecord flash l t).2.wf = true := by
  unfold loadRecord
  split
  · split
    · exact h
    · dsimp only
      split
      · exact h
      · split
        · split
          · exact h
          · exact Tables.wf_putRecord h _ _ _
        · exact h
        · exact h
  · exact h

/-- One unit of a load keeps the canonical form. -/
theorem wf_loadUnit {flash : List Octet} {x : Loader × Tables} (h : x.2.wf = true) : (loadUnit flash x).2.wf = true := by
  unfold loadUnit
  dsimp only
  split
  · split <;> exact h
  · split
    · split <;> exact h
    · exact h
    · exact h
  · split
    · exact wf_loadRecord h
    · split <;> exact h
  · exact h
  · exact h
  · exact h
  · exact h

/-- A load keeps the canonical form of the tables it fills. -/
theorem wf_loadUnits {flash : List Octet} {n : Nat} {x : Loader × Tables} (h : x.2.wf = true) :
    (loadUnits flash n x).2.wf = true := by
  induction n generalizing x with
  | zero => exact h
  | succ n ih =>
    unfold loadUnits
    split
    · exact h
    · exact ih (wf_loadUnit h)

/-! ## Records read back -/

/-- The record a table lists for a record written: a cell of base plan 0 and span 1 is not listed. -/
def Record.listed (r : Record) : Option Record := if r = .cell emptyCell then none else some r

/-- Whether a record is one of a table. -/
def Record.isOf : Record → TableId → Bool
  | .style _, .styles | .cell _, .matrix | .overlay _, .overlays | .plan _, .plans | .schedule _, .schedules
  | .curve _, .curves => true
  | _, _ => false

/-- An entry of a table written reads back; the empty cell reads as empty. -/
theorem Tables.record?_putRecord_self {t : Tables} {k : TableId} {i : Nat} {r : Option Record}
    (h : ∀ x, r = some x → x.isOf k = true) : (t.putRecord k i r).record? k i = r.bind Record.listed := by
  cases r with
  | none => cases k <;> simp [Tables.putRecord, Tables.record?]
  | some x =>
    have := h x rfl
    cases x <;> cases k <;> simp_all [Record.isOf, Tables.putRecord, Tables.record?, Record.listed, listedCell]
    split <;> simp_all

/-- An entry of a table written leaves every other entry of every table. -/
theorem Tables.record?_putRecord_ne {t : Tables} {k k' : TableId} {i n : Nat} {r : Option Record}
    (hr : ∀ x, r = some x → x.isOf k = true) (h : k' ≠ k ∨ n ≠ i) :
    (t.putRecord k i r).record? k' n = t.record? k' n := by
  cases r with
  | none =>
    cases k <;> cases k' <;> simp_all [Tables.putRecord, Tables.record?, tableGet_tablePut_ne]
  | some x =>
    have := hr x rfl
    cases x <;> cases k <;> cases k' <;>
      simp_all [Record.isOf, Tables.putRecord, Tables.record?, tableGet_tablePut_ne]

/-- A record whose fields were read for a table is one of that table. -/
theorem isOf_of_readFields {k : TableId} {os rest : List Octet} {r : Record}
    (h : readFields k os = some (.ok r, rest)) : r.isOf k = true := by
  cases k <;> simp only [readFields, Option.bind_eq_bind, Option.bind_eq_some_iff, Prod.exists, Option.some.injEq,
    Prod.mk.injEq] at h
  · obtain ⟨_, _, _, _, _, _, h, _⟩ := h
    unfold checkStyle at h; split at h <;> cases h; rfl
  · obtain ⟨_, _, _, _, _, _, h, _⟩ := h
    unfold checkCell at h; split at h <;> cases h; rfl
  · obtain ⟨_, _, _, _, _, _, _, _, _, _, _, _, _, _, _, h, _⟩ := h
    unfold checkOverlay at h; split at h <;> cases h; rfl
  · obtain ⟨_, _, _, _, _, _, _, _, _, _, _, _, _, _, _, h, _⟩ := h
    unfold checkPlan at h; split at h
    · cases h
    · split at h <;> cases h; rfl
  · obtain ⟨_, _, _, _, _, _, _, _, _, h, _⟩ := h
    unfold checkSchedule at h; split at h <;> cases h; rfl
  · obtain ⟨_, _, _, _, _, _, h, _⟩ := h
    unfold checkCurve at h; split at h
    · cases h
    · split at h <;> cases h; rfl

/-- Every record a WRITE TABLE reads is one of its table. -/
theorem isOf_of_readRecords {k : TableId} {fuel : Nat} {os : List Octet}
    {l : List (Except RecordCheck (Option Record))} (h : readRecords k fuel os = some l) :
    ∀ r ∈ l, ∀ x, r = .ok (some x) → x.isOf k = true := by
  induction fuel generalizing os l with
  | zero =>
    cases os with
    | nil => cases h; simp
    | cons => cases h
  | succ n ih =>
    cases os with
    | nil => cases h; simp
    | cons a os =>
      simp only [readRecords, Option.bind_eq_bind, Option.bind_eq_some_iff, Prod.exists, Option.some.injEq] at h
      obtain ⟨r, rest, hr, more, hm, rfl⟩ := h
      intro y hy x hx
      rcases List.mem_cons.1 hy with rfl | hy
      · subst hx
        simp only [readRecord] at hr
        split at hr
        · cases hr
        · split at hr
          · simp only [Option.map_eq_some_iff, Prod.mk.injEq, Prod.exists] at hr
            obtain ⟨c, p, hc, hx, _⟩ := hr
            cases c with
            | error _ => cases hx
            | ok c =>
              have : c = x := by
                have := hx
                simp only [Except.map, Except.ok.injEq, Option.some.injEq] at this
                exact this
              subst this
              exact isOf_of_readFields hc
          · cases hr
      · exact ih hm y hy x hx

end Sys2Proof.Machine
end

