-- ==== Sys2Proof/Laws/Records.lean ====
section
/-! SUPPORT. The records of the tables (R26 to R31, R37): what is read is in range, every write keeps a bank's entries in range,
and the octets of a record read back. -/

namespace Sys2Proof.Machine

open Octets

/-! ## What is read is in range -/

theorem inRange_of_checkStyle {code : BitVec 16} {row : Nat} {r : Record} (h : checkStyle code row = .ok r) : r.inRange := by
  unfold checkStyle at h
  split at h
  · cases h
  · next hc => cases h; simp only [not_or] at hc; exact ⟨hc.1, hc.2.1, Nat.not_lt.1 hc.2.2⟩

theorem inRange_of_checkCell {plan span : Nat} {r : Record} (h : checkCell plan span = .ok r) : r.inRange := by
  unfold checkCell at h
  split at h
  · cases h
  · cases h; simp only [Record.inRange]; omega

theorem inRange_of_checkOverlay {bit row slot action plan : Nat} {r : Record}
    (h : checkOverlay bit row slot action plan = .ok r) : r.inRange := by
  unfold checkOverlay at h
  split at h
  · cases h
  · cases h
    simp only [Record.inRange]
    refine ⟨by omega, fun x hx => ?_, by omega, by omega, by omega⟩
    split at hx
    · cases hx
    · cases hx; omega

theorem inRange_of_checkStep {type x y : Octet} {step : PlanStep} (h : checkStep type x y = some step) : step.inRange := by
  have hx := x.isLt
  have hy := y.isLt
  have hn : ∀ z : Octet, z ≠ 0 → 1 ≤ z.toNat := fun z hz => Nat.one_le_iff_ne_zero.2 fun e => hz (BitVec.eq_of_toNat_eq e)
  unfold checkStep at h
  split at h
  · split at h
    · cases h
    · next hc =>
      cases h
      simp only [not_or] at hc
      exact ⟨hn _ hc.1, by omega, hn _ hc.2.2, by omega⟩
  · split at h
    · dsimp only at h
      split at h
      · cases h
      · next hc =>
        cases h
        simp only [not_or] at hc
        exact ⟨by omega, by omega⟩
    · cases h

theorem mapM_some {α β : Type} {f : α → Option β} {l : List α} {m : List β} (h : l.mapM f = some m) :
    m.length = l.length ∧ ∀ y ∈ m, ∃ x ∈ l, f x = some y := by
  induction l generalizing m with
  | nil => cases h; simp
  | cons a l ih =>
    simp only [List.mapM_cons, Option.bind_eq_bind, Option.bind_eq_some_iff, Option.pure_def, Option.some.injEq] at h
    obtain ⟨b, hb, m', hm, rfl⟩ := h
    obtain ⟨h1, h2⟩ := ih hm
    refine ⟨by simp [h1], fun y hy => ?_⟩
    rcases List.mem_cons.1 hy with rfl | hy
    · exact ⟨a, by simp, hb⟩
    · obtain ⟨x, hx, he⟩ := h2 y hy
      exact ⟨x, by simp [hx], he⟩

theorem inRange_of_checkPlan {program cycleMin cycleMax : Nat} {steps : List (Octet × Octet × Octet)} {r : Record}
    (hp : program ≤ 255) (h1 : cycleMin ≤ 65535) (h2 : cycleMax ≤ 65535) (h : checkPlan program cycleMin cycleMax steps = .ok r) :
    r.inRange := by
  unfold checkPlan at h
  split at h
  · cases h
  · split at h
    · next l hl =>
      cases h
      obtain ⟨h3, h4⟩ := mapM_some hl
      refine ⟨by simp only; omega, hp, h1, h2, by simp only; omega, by simp only; omega, fun x hx => ?_⟩
      obtain ⟨y, _, hy⟩ := h4 x hx
      exact inRange_of_checkStep hy
    · cases h

theorem inRange_of_checkSchedule {base weldTime curve : Nat} {r : Record} (h : checkSchedule base weldTime curve = .ok r) :
    r.inRange := by
  unfold checkSchedule at h
  split at h
  · cases h
  · cases h; simp only [Record.inRange]; omega

theorem inRange_of_checkCurve {points : List Breakpoint} {r : Record} (h : checkCurve points = .ok r) : r.inRange := by
  unfold checkCurve at h
  split at h
  · cases h
  · next hc =>
    split at h
    · next ho =>
      cases h
      simp only [not_or, Bool.not_eq_true, List.any_eq_false, Bool.or_eq_true, decide_eq_true_eq] at hc
      refine ⟨by omega, by omega, fun p hp => ?_, ho⟩
      have := hc.2.2 p hp
      omega
    · cases h

/-- A record that passed its checks is in the ranges of its table. -/
theorem inRange_of_readFields {k : TableId} {os rest : List Octet} {r : Record} (h : readFields k os = some (.ok r, rest)) :
    r.inRange := by
  cases k <;> simp only [readFields, Option.bind_eq_bind, Option.bind_eq_some_iff, Prod.exists, Option.some.injEq,
    Prod.mk.injEq] at h
  · obtain ⟨_, _, _, _, _, _, h, _⟩ := h
    exact inRange_of_checkStyle h
  · obtain ⟨_, _, _, _, _, _, h, _⟩ := h
    exact inRange_of_checkCell h
  · obtain ⟨_, _, _, _, _, _, _, _, _, _, _, _, _, _, _, h, _⟩ := h
    exact inRange_of_checkOverlay h
  · obtain ⟨_, _, _, _, _, _, _, _, _, _, _, _, _, _, _, h, _⟩ := h
    exact inRange_of_checkPlan (Nat.le_of_lt_succ (BitVec.isLt _)) (Nat.le_of_lt_succ (BitVec.isLt _))
      (Nat.le_of_lt_succ (BitVec.isLt _)) h
  · obtain ⟨_, _, _, _, _, _, _, _, _, h, _⟩ := h
    exact inRange_of_checkSchedule h
  · obtain ⟨_, _, _, _, _, _, h, _⟩ := h
    exact inRange_of_checkCurve h

/-- Every record a WRITE TABLE reads is in range. -/
theorem inRange_of_readRecords {k : TableId} {fuel : Nat} {os : List Octet}
    {l : List (Except RecordCheck (Option Record))} (h : readRecords k fuel os = some l) :
    ∀ x, .ok (some x) ∈ l → x.inRange := by
  induction fuel generalizing os l with
  | zero =>
    cases os with
    | nil => cases h; simp
    | cons => cases h
  | succ n ih =>
    cases os with
    | nil => cases h; simp
    | cons a os =>
      simp only [readRecords, Option.bind_eq_bind, Option.bind_eq_some_iff, Prod.exists, Option.some.injEq] at h
      obtain ⟨r, rest, hr, more, hm, rfl⟩ := h
      intro x hx
      rcases List.mem_cons.1 hx with rfl | hx
      · simp only [readRecord] at hr
        split at hr
        · cases hr
        · split at hr
          · simp only [Option.map_eq_some_iff, Prod.mk.injEq, Prod.exists] at hr
            obtain ⟨c, p, hc, hx, _⟩ := hr
            cases c with
            | error _ => cases hx
            | ok c =>
              simp only [Except.map, Except.ok.injEq, Option.some.injEq] at hx
              exact hx ▸ inRange_of_readFields hc
          · cases hr
      · exact ih hm x hx

/-- Every cell of a WRITE BLOCK that passed its check is in range. -/
theorem inRange_of_blockCells {b : Block} {form : Octet} {os : List Octet} {l : List CheckedRecord}
    (h : blockCells b form os = some l) : ∀ x, .ok x ∈ l → x.inRange := by
  have read : ∀ (l : List CheckedRecord) (os : List Octet), readCells os = some l → ∀ x, .ok x ∈ l → x.inRange := by
    intro l
    induction l with
    | nil => simp
    | cons r l ih =>
      intro os h x hx
      match os with
      | [] => cases h
      | [_] | [_, _] => cases h
      | a :: y :: z :: rest =>
        simp only [readCells, Option.map_eq_some_iff, List.cons.injEq] at h
        obtain ⟨l', h, h1, rfl⟩ := h
        rcases List.mem_cons.1 hx with e | hx
        · exact inRange_of_checkCell (h1.trans e.symm)
        · exact ih rest h x hx
  unfold blockCells at h
  split at h
  · split at h
    · cases h
      intro x hx
      exact inRange_of_checkCell (List.eq_of_mem_replicate hx).symm
    · cases h
  · obtain ⟨m, hm, h⟩ := Option.bind_eq_some_iff.1 h
    split at h
    · cases h; exact read _ _ hm
    · cases h
  · cases h

/-! ## Every write keeps a bank's entries in range -/

theorem Tables.inRange_iff {t : Tables} : t.inRange ↔ (∀ e ∈ t.styles, (Record.style e.2).inRange) ∧
    (∀ e ∈ t.matrix, (Record.cell e.2).inRange) ∧ (∀ e ∈ t.overlays, (Record.overlay e.2).inRange) ∧
    (∀ e ∈ t.plans, (Record.plan e.2).inRange) ∧ (∀ e ∈ t.schedules, (Record.schedule e.2).inRange) ∧
    (∀ e ∈ t.curves, (Record.curve e.2).inRange) := by
  simp only [Tables.inRange, Tables.records, List.mem_append, List.mem_map, or_imp, forall_and, forall_exists_index, and_imp,
    forall_apply_eq_imp_iff₂, and_assoc]

theorem Tables.inRange_empty : Tables.empty.inRange := by
  intro x hx
  simp [Tables.records, Tables.empty] at hx

/-- An entry in range written, or one emptied. -/
theorem Tables.inRange_putRecord {t : Tables} (h : t.inRange) (k : TableId) (i : Nat) {r : Option Record}
    (hr : ∀ x, r = some x → x.inRange) : (t.putRecord k i r).inRange := by
  rw [Tables.inRange_iff] at h ⊢
  obtain ⟨h1, h2, h3, h4, h5, h6⟩ := h
  have drop : ∀ {α : Type} (c : α → Record) (l : List (Nat × α)), (∀ e ∈ l, (c e.2).inRange) →
      ∀ e ∈ tablePut l i none, (c e.2).inRange := fun c l hl e he => hl e (List.mem_filter.1 he).1
  have put : ∀ {α : Type} (c : α → Record) (l : List (Nat × α)) (y : α), (∀ e ∈ l, (c e.2).inRange) → (c y).inRange →
      ∀ e ∈ tablePut l i (some y), (c e.2).inRange := fun c l y hl hy e he =>
    (mem_tableInsert he).elim (fun h => h ▸ hy) (hl e)
  cases r with
  | none =>
    cases k
    · exact ⟨drop .style _ h1, h2, h3, h4, h5, h6⟩
    · exact ⟨h1, drop .cell _ h2, h3, h4, h5, h6⟩
    · exact ⟨h1, h2, drop .overlay _ h3, h4, h5, h6⟩
    · exact ⟨h1, h2, h3, drop .plan _ h4, h5, h6⟩
    · exact ⟨h1, h2, h3, h4, drop .schedule _ h5, h6⟩
    · exact ⟨h1, h2, h3, h4, h5, drop .curve _ h6⟩
  | some x =>
    have hx := hr x rfl
    cases x with
    | style y => exact ⟨put .style _ y h1 hx, h2, h3, h4, h5, h6⟩
    | cell y =>
      refine ⟨h1, ?_, h3, h4, h5, h6⟩
      show ∀ e ∈ tablePut t.matrix i (listedCell y), _
      unfold listedCell
      split
      · exact drop .cell _ h2
      · exact put .cell _ y h2 hx
    | overlay y => exact ⟨h1, h2, put .overlay _ y h3 hx, h4, h5, h6⟩
    | plan y => exact ⟨h1, h2, h3, put .plan _ y h4 hx, h5, h6⟩
    | schedule y => exact ⟨h1, h2, h3, h4, put .schedule _ y h5 hx, h6⟩
    | curve y => exact ⟨h1, h2, h3, h4, h5, put .curve _ y h6 hx⟩

/-- A run in range written. -/
theorem Tables.inRange_putRun {t : Tables} (h : t.inRange) (k : TableId) (first : Nat) (l : List (Option Record))
    (hl : ∀ x, some x ∈ l → x.inRange) : (t.putRun k first l).inRange := by
  induction l generalizing t first with
  | nil => exact h
  | cons r rest ih =>
    exact ih (Tables.inRange_putRecord h k first fun x hx => hl x (by simp [hx])) _ fun x hx => hl x (by simp [hx])

/-- A block written of records that are in range where they passed. -/
theorem Tables.inRange_putBlock {t : Tables} (h : t.inRange) (b : Block) (n : Nat) (l : List CheckedRecord)
    (hl : ∀ x, .ok x ∈ l → x.inRange) : (t.putBlock b n l).inRange := by
  induction l generalizing t n with
  | nil => exact h
  | cons r rest ih =>
    have hrest : ∀ x, .ok x ∈ rest → x.inRange := fun x hx => hl x (by simp [hx])
    cases r with
    | ok r => exact ih (Tables.inRange_putRecord h .matrix _ (by rintro _ ⟨⟩; exact hl r (by simp))) _ hrest
    | error _ => exact ih h _ hrest

/-- A copy under way. -/
theorem Tables.inRange_copyTables {s t : Tables} (n : Nat) (hs : s.inRange) (ht : t.inRange) : (copyTables n s t).inRange := by
  rw [Tables.inRange_iff] at hs ht ⊢
  obtain ⟨h1, h2, h3, h4, h5, h6⟩ := hs
  obtain ⟨k1, k2, k3, k4, k5, k6⟩ := ht
  have merge : ∀ {α : Type} (p : Nat × α → Prop) (cut : Nat) (l m : List (Nat × α)), (∀ e ∈ l, p e) → (∀ e ∈ m, p e) →
      ∀ e ∈ mergeAt cut l m, p e := fun p cut l m hl hm e he =>
    (List.mem_append.1 he).elim (fun h => hl e (List.mem_filter.1 h).1) fun h => hm e (List.mem_filter.1 h).1
  exact ⟨merge _ _ _ _ h1 k1, merge _ _ _ _ h2 k2, merge _ _ _ _ h3 k3, merge _ _ _ _ h4 k4, merge _ _ _ _ h5 k5,
    merge _ _ _ _ h6 k6⟩

/-- One unit of a load. -/
theorem inRange_loadUnit {flash : List Octet} {x : Loader × Tables} (h : x.2.inRange) : (loadUnit flash x).2.inRange := by
  have hr : ∀ l t, t.inRange → (loadRecord flash l t).2.inRange := by
    intro l t h
    unfold loadRecord
    split
    · split
      · exact h
      · dsimp only
        split
        · exact h
        · split
          · next hf =>
            split
            · exact h
            · exact Tables.inRange_putRecord h _ _ (by rintro _ ⟨⟩; exact inRange_of_readFields hf)
          · exact h
          · exact h
    · exact h
  unfold loadUnit
  dsimp only
  split
  · split <;> exact h
  · split
    · split <;> exact h
    · exact h
    · exact h
  · split
    · exact hr _ _ h
    · split <;> exact h
  · exact h
  · exact h
  · exact h
  · exact h

/-- A load. -/
theorem inRange_loadUnits {flash : List Octet} {n : Nat} {x : Loader × Tables} (h : x.2.inRange) :
    (loadUnits flash n x).2.inRange := by
  induction n generalizing x with
  | zero => exact h
  | succ n ih =>
    unfold loadUnits
    split
    · exact h
    · exact ih (inRange_loadUnit h)

/-! ## A record's octets read back -/

theorem read1_nat1 (n : Nat) (rest : List Octet) : read1 (nat1 n ++ rest) = some (BitVec.ofNat 8 n, rest) := rfl

theorem read1_cons (a : Octet) (rest : List Octet) : read1 (a :: rest) = some (a, rest) := rfl

theorem toNat_ofNat8 {n : Nat} (h : n ≤ 255) : (BitVec.ofNat 8 n).toNat = n := by
  simp; omega

theorem toNat_ofNat16 {n : Nat} (h : n ≤ 65535) : (BitVec.ofNat 16 n).toNat = n := by
  simp; omega

/-- The two octets of a number make it. -/
theorem nat2_join {n : Nat} : ∃ hi lo : Octet, nat2 n = [hi, lo] ∧ hi ++ lo = BitVec.ofNat 16 n :=
  ⟨_, _, rfl, be2_join _⟩

/-- The octets of a step that is in range. -/
theorem stepOctets_eq {x : PlanStep} (h : x.inRange) : ∃ type a b : Octet, stepOctets x = [type, a, b] ∧
    checkStep type a b = some x := by
  cases x with
  | group schedule spots =>
    obtain ⟨h1, h2, h3, h4⟩ := h
    refine ⟨0, BitVec.ofNat 8 schedule, BitVec.ofNat 8 spots, rfl, ?_⟩
    have e1 := toNat_ofNat8 (n := schedule) (by omega)
    have e2 := toNat_ofNat8 (n := spots) (by omega)
    unfold checkStep
    rw [if_pos rfl, if_neg, e1, e2]
    rw [e1]
    refine not_or.2 ⟨fun e => ?_, not_or.2 ⟨by omega, fun e => ?_⟩⟩
    · rw [e] at e1; simp at e1; omega
    · rw [e] at e2; simp at e2; omega
  | call plan =>
    obtain ⟨h1, h2⟩ := h
    obtain ⟨hi, lo, e, e'⟩ := nat2_join (n := plan)
    refine ⟨1, hi, lo, by simp [stepOctets, e], ?_⟩
    have := congrArg BitVec.toNat e'
    rw [toNat_ofNat16 (by omega), BitVec.toNat_append, ← Nat.shiftLeft_add_eq_or_of_lt lo.isLt, Nat.shiftLeft_eq] at this
    unfold checkStep
    rw [if_neg (by decide), if_pos rfl]
    dsimp only
    rw [show hi.toNat * 256 + lo.toNat = plan from this, if_neg (by omega)]

/-- Steps in range read back. -/
theorem readSteps_stepOctets {steps : List PlanStep} (h : ∀ x ∈ steps, x.inRange) (rest : List Octet) :
    ∃ l, readSteps steps.length (steps.flatMap stepOctets ++ rest) = some (l, rest) ∧ l.length = steps.length ∧
      l.mapM (fun x => checkStep x.1 x.2.1 x.2.2) = some steps := by
  induction steps with
  | nil => exact ⟨[], rfl, rfl, rfl⟩
  | cons x steps ih =>
    obtain ⟨l, h1, h2, h3⟩ := ih fun y hy => h y (by simp [hy])
    obtain ⟨type, a, b, e, e'⟩ := stepOctets_eq (h x (by simp))
    exact ⟨(type, a, b) :: l, by simp [e, readSteps, h1], by simp [h2], by simp [List.mapM_cons, e', h3]⟩

/-- Breakpoints in range read back. -/
theorem readPoints_octets {points : List Breakpoint} (h : ∀ p ∈ points, p.wear ≤ 60000 ∧ p.raise ≤ 500) (rest : List Octet) :
    readPoints points.length (points.flatMap (fun p => nat2 p.wear ++ nat2 p.raise) ++ rest) = some (points, rest) := by
  induction points with
  | nil => rfl
  | cons p points ih =>
    obtain ⟨a, b, e, e'⟩ := nat2_join (n := p.wear)
    obtain ⟨c, d, k, k'⟩ := nat2_join (n := p.raise)
    have hp := h p (by simp)
    have e'' := toNat_ofNat16 (n := p.wear) (by omega)
    have k'' := toNat_ofNat16 (n := p.raise) (by omega)
    simp only [List.length_cons, List.flatMap_cons, e, k, List.cons_append, List.nil_append, readPoints,
      ih fun y hy => h y (by simp [hy]), e', k', e'', k'', Option.map_some]

/-- The fields of a record in range read back, with the octets after them. -/
theorem readFields_octets {k : TableId} {r : Record} (hk : r.isOf k = true) (h : r.inRange) (rest : List Octet) :
    readFields k (r.octets ++ rest) = some (.ok r, rest) := by
  cases r with
  | style e =>
    cases k <;> cases hk
    obtain ⟨h1, h2, h3⟩ := h
    simp only [readFields, Record.octets, List.append_assoc, read2_be2, read1_nat1, Option.bind_eq_bind, Option.bind_some,
      toNat_ofNat8 (show e.row ≤ 255 by omega), checkStyle]
    rw [if_neg (not_or.2 ⟨h1, not_or.2 ⟨h2, Nat.not_lt.2 h3⟩⟩)]
  | cell c =>
    cases k <;> cases hk
    obtain ⟨h1, h2, h3⟩ := h
    simp only [readFields, Record.octets, nat2, List.append_assoc, read2_be2, read1_nat1, Option.bind_eq_bind, Option.bind_some,
      toNat_ofNat8 (show c.span ≤ 255 by omega), toNat_ofNat16 (show c.basePlan ≤ 65535 by omega), checkCell]
    rw [if_neg (by omega)]
  | overlay e =>
    cases k <;> cases hk
    obtain ⟨bit, orow, slot, action, plan⟩ := e
    obtain ⟨h1, h2, h3, h4, h5⟩ := h
    simp only at h1 h2 h3 h4 h5
    obtain ⟨row, er, hrow, hrr⟩ : ∃ row, opt1 orow = nat1 row ∧ (¬(63 < row ∧ row ≠ 255) ∧ row ≤ 255) ∧
        (if row = 255 then none else some row) = orow := by
      cases hr : orow with
      | none => exact ⟨255, rfl, by omega, by simp⟩
      | some x =>
        have := h2 x hr
        exact ⟨x, rfl, by omega, if_neg (by omega)⟩
    have key : ∀ act : Octet, act.toNat ≤ 1 → (if act.toNat = 0 then OverlayAction.substitute else .append) = action →
        readFields .overlays (nat1 bit ++ (nat1 row ++ (nat1 slot ++ (act :: (nat2 plan ++ rest))))) =
          some (.ok (.overlay ⟨bit, orow, slot, action, plan⟩), rest) := by
      intro act hact haa
      simp only [readFields, nat2, read2_be2, read1_nat1, read1_cons, Option.bind_eq_bind, Option.bind_some,
        toNat_ofNat8 (show bit ≤ 255 by omega), toNat_ofNat8 hrow.2, toNat_ofNat8 (show slot ≤ 255 by omega),
        toNat_ofNat16 (show plan ≤ 65535 by omega), checkOverlay]
      rw [if_neg (by omega), hrr, haa]
    simp only [Record.octets, er, List.append_assoc]
    cases action
    · exact key 0 (by decide) rfl
    · exact key 1 (by decide) rfl
  | plan e =>
    cases k <;> cases hk
    obtain ⟨h1, h2, h3, h4, h5, h6, h7⟩ := h
    obtain ⟨l, g1, g2, g3⟩ := readSteps_stepOctets h7 rest
    simp only [readFields, Record.octets, counted, nat2, List.append_assoc, read2_be2, read1_nat1, Option.bind_eq_bind,
      Option.bind_some, toNat_ofNat8 h2, toNat_ofNat8 (show e.steps.length ≤ 255 by omega), toNat_ofNat16 h3, toNat_ofNat16 h4,
      g1, checkPlan, g2, g3]
    rw [if_neg (by omega)]
  | schedule e =>
    cases k <;> cases hk
    obtain ⟨h1, h2, h3, h4, h5⟩ := h
    simp only [readFields, Record.octets, nat2, List.append_assoc, read2_be2, read1_nat1, Option.bind_eq_bind,
      Option.bind_some, toNat_ofNat8 (show e.curve ≤ 255 by omega), toNat_ofNat16 (show e.base ≤ 65535 by omega),
      toNat_ofNat16 (show e.weldTime ≤ 65535 by omega), checkSchedule]
    rw [if_neg (by omega)]
  | curve l =>
    cases k <;> cases hk
    obtain ⟨h1, h2, h3, h4⟩ := h
    simp only [readFields, Record.octets, counted, List.append_assoc, read1_nat1, Option.bind_eq_bind, Option.bind_some,
      toNat_ofNat8 (show l.length ≤ 255 by omega), readPoints_octets h3, checkCurve, h4, if_true]
    rw [if_neg]
    simp only [not_or, Bool.not_eq_true, List.any_eq_false, Bool.or_eq_true, decide_eq_true_eq]
    exact ⟨by omega, by omega, fun p hp => by have := h3 p hp; omega⟩

/-- What the steps read have is as long as the octets they were read from. -/
theorem length_readSteps {n : Nat} {os rest : List Octet} {l : List (Octet × Octet × Octet)}
    (h : readSteps n os = some (l, rest)) : l.length = n ∧ os.length = 3 * n + rest.length := by
  induction n generalizing os l with
  | zero => cases h; simp
  | succ n ih =>
    match os with
    | a :: x :: y :: os =>
      simp only [readSteps, Option.map_eq_some_iff, Prod.mk.injEq, Prod.exists] at h
      obtain ⟨l', rest', h, rfl, rfl⟩ := h
      obtain ⟨h1, h2⟩ := ih h
      exact ⟨by rw [List.length_cons, h1], by simp only [List.length_cons, h2]; omega⟩
    | [] | [_] | [_, _] => cases h

theorem length_readPoints {n : Nat} {os rest : List Octet} {l : List Breakpoint} (h : readPoints n os = some (l, rest)) :
    l.length = n ∧ os.length = 4 * n + rest.length := by
  induction n generalizing os l with
  | zero => cases h; simp
  | succ n ih =>
    match os with
    | a :: x :: y :: z :: os =>
      simp only [readPoints, Option.map_eq_some_iff, Prod.mk.injEq, Prod.exists] at h
      obtain ⟨l', rest', h, rfl, rfl⟩ := h
      obtain ⟨h1, h2⟩ := ih h
      exact ⟨by rw [List.length_cons, h1], by simp only [List.length_cons, h2]; omega⟩
    | [] | [_] | [_, _] | [_, _, _] => cases h

theorem length_read1 {os rest : List Octet} {a : Octet} (h : read1 os = some (a, rest)) : os.length = 1 + rest.length := by
  match os with
  | _ :: _ => cases h; simp; omega
  | [] => cases h

theorem length_read2 {os rest : List Octet} {a : BitVec 16} (h : read2 os = some (a, rest)) :
    os.length = 2 + rest.length := by
  match os with
  | _ :: _ :: _ => cases h; simp; omega
  | [] | [_] => cases h

theorem length_nat1 (n : Nat) : (nat1 n).length = 1 := rfl

theorem length_nat2 (n : Nat) : (nat2 n).length = 2 := rfl

theorem length_opt1 (n : Option Nat) : (opt1 n).length = 1 := by cases n <;> rfl

theorem length_flatMap_const {α : Type} {f : α → List Octet} {m : Nat} (h : ∀ x, (f x).length = m) (l : List α) :
    (l.flatMap f).length = m * l.length := by
  induction l with
  | nil => rfl
  | cons a l ih => simp only [List.flatMap_cons, List.length_append, h, ih, List.length_cons]; rw [Nat.mul_succ]; omega

theorem length_stepOctets (x : PlanStep) : (stepOctets x).length = 3 := by cases x <;> rfl

/-- A record that passed its checks was read from as many octets as its fields take. -/
theorem length_of_readFields {k : TableId} {os rest : List Octet} {r : Record} (h : readFields k os = some (.ok r, rest)) :
    os.length = r.octets.length + rest.length := by
  cases k <;> simp only [readFields, Option.bind_eq_bind, Option.bind_eq_some_iff, Prod.exists, Option.some.injEq,
    Prod.mk.injEq] at h
  · obtain ⟨_, _, h1, _, _, h2, h, rfl⟩ := h
    have := length_read2 h1
    have := length_read1 h2
    unfold checkStyle at h; split at h <;> cases h
    simp only [Record.octets, List.length_append, length_be2, length_nat1]; omega
  · obtain ⟨_, _, h1, _, _, h2, h, rfl⟩ := h
    have := length_read2 h1
    have := length_read1 h2
    unfold checkCell at h; split at h <;> cases h
    simp only [Record.octets, List.length_append, length_nat2, length_nat1]; omega
  · obtain ⟨_, _, h1, _, _, h2, _, _, h3, _, _, h4, _, _, h5, h, rfl⟩ := h
    have := length_read1 h1
    have := length_read1 h2
    have := length_read1 h3
    have := length_read1 h4
    have := length_read2 h5
    unfold checkOverlay at h; split at h <;> cases h
    simp only [Record.octets, List.length_append, length_nat2, length_nat1, length_opt1]
    split <;> simp only [List.length_cons, List.length_nil] <;> omega
  · obtain ⟨_, _, h1, _, _, h2, _, _, h3, _, _, h4, _, _, h5, h, rfl⟩ := h
    have := length_read1 h1
    have := length_read2 h2
    have := length_read2 h3
    have := length_read1 h4
    have h6 := length_readSteps h5
    unfold checkPlan at h
    split at h
    · cases h
    · split at h
      · next hl =>
        cases h
        have h7 := (mapM_some hl).1
        simp only [Record.octets, List.length_append, length_nat2, length_nat1, counted,
          length_flatMap_const length_stepOctets]
        omega
      · cases h
  · obtain ⟨_, _, h1, _, _, h2, _, _, h3, h, rfl⟩ := h
    have := length_read2 h1
    have := length_read2 h2
    have := length_read1 h3
    unfold checkSchedule at h; split at h <;> cases h
    simp only [Record.octets, List.length_append, length_nat2, length_nat1]; omega
  · obtain ⟨_, _, h1, _, _, h2, h, rfl⟩ := h
    have := length_read1 h1
    have h6 := length_readPoints h2
    unfold checkCurve at h
    split at h
    · cases h
    · split at h <;> cases h
      simp only [Record.octets, List.length_append, length_nat1, counted,
        length_flatMap_const (f := fun p : Breakpoint => nat2 p.wear ++ nat2 p.raise) (m := 4) fun _ => rfl]
      omega

/-! ## The run of READ TABLE (R40) -/

/-- An entry a table lists is one of that table, and stands in its records. -/
theorem Tables.record?_eq_some {t : Tables} {k : TableId} {i : Nat} {r : Record} (h : t.record? k i = some r) :
    r.isOf k = true ∧ ∃ x ∈ t.records, x.2.2 = r := by
  have get : ∀ {α : Type} {l : List (Nat × α)} {a : α}, tableGet l i = some a → ∃ e ∈ l, e.2 = a := by
    intro α l a h
    unfold tableGet at h
    obtain ⟨e, he, rfl⟩ := Option.map_eq_some_iff.1 h
    exact ⟨e, List.mem_of_find?_eq_some he, rfl⟩
  cases k <;> simp only [Tables.record?, Option.map_eq_some_iff] at h <;> obtain ⟨a, ha, rfl⟩ := h <;>
    obtain ⟨e, he, rfl⟩ := get ha <;> refine ⟨rfl, ?_⟩ <;>
    simp only [Tables.records, List.mem_append, List.mem_map]
  · exact ⟨_, .inl (.inl (.inl (.inl (.inl ⟨e, he, rfl⟩)))), rfl⟩
  · exact ⟨_, .inl (.inl (.inl (.inl (.inr ⟨e, he, rfl⟩)))), rfl⟩
  · exact ⟨_, .inl (.inl (.inl (.inr ⟨e, he, rfl⟩))), rfl⟩
  · exact ⟨_, .inl (.inl (.inr ⟨e, he, rfl⟩)), rfl⟩
  · exact ⟨_, .inl (.inr ⟨e, he, rfl⟩), rfl⟩
  · exact ⟨_, .inr ⟨e, he, rfl⟩, rfl⟩

/-- An entry of tables in range, as READ TABLE returns it, reads back. -/
theorem readRecord_presenceOctets {t : Tables} (h : t.inRange) (k : TableId) (i : Nat) (rest : List Octet) :
    readRecord k (presenceOctets (t.record? k i) ++ rest) = some (.ok (t.record? k i), rest) := by
  cases hr : t.record? k i with
  | none => rfl
  | some r =>
    obtain ⟨hk, x, hx, he⟩ := Tables.record?_eq_some hr
    simp only [presenceOctets, List.cons_append, readRecord, readFields_octets hk (he ▸ h x hx)]
    rfl

/-- A record read is as long as READ TABLE returns it. -/
theorem length_of_readRecord {k : TableId} {os rest : List Octet} {x : Option Record}
    (h : readRecord k os = some (.ok x, rest)) : os.length = (presenceOctets x).length + rest.length := by
  cases os with
  | nil => cases h
  | cons a os =>
    simp only [readRecord] at h
    split at h
    · cases h; simp [presenceOctets]; omega
    · split at h
      · simp only [Option.map_eq_some_iff, Prod.mk.injEq, Prod.exists] at h
        obtain ⟨c, p, hc, hx, rfl⟩ := h
        cases c with
        | error _ => cases hx
        | ok r =>
          have : some r = x := by simpa only [Except.map, Except.ok.injEq] using hx
          subst this
          have := length_of_readFields hc
          simp only [presenceOctets, List.length_cons]
          omega
      · cases h

/-- The longest front part of some items that fits. -/
theorem fitting_spec (l : List (List Octet)) (room : Nat) : ∃ n ≤ l.length, fitting room l = l.take n ∧
    (l.take n).flatten.length ≤ room ∧ ∀ x, l[n]? = some x → room < (l.take n).flatten.length + x.length := by
  induction l generalizing room with
  | nil => exact ⟨0, by simp, by simp [fitting], by simp, by simp⟩
  | cons x l ih =>
    by_cases hx : x.length ≤ room
    · obtain ⟨n, h1, h2, h3, h4⟩ := ih (room - x.length)
      refine ⟨n + 1, by simpa using h1, by simp [fitting, hx, h2], ?_, fun y hy => ?_⟩
      · simp only [List.take_succ_cons, List.flatten_cons, List.length_append]; omega
      · have := h4 y (by simpa using hy)
        simp only [List.take_succ_cons, List.flatten_cons, List.length_append]; omega
    · refine ⟨0, by simp, by simp [fitting, hx], by simp, fun y hy => ?_⟩
      simp only [List.getElem?_cons_zero, Option.some.injEq] at hy
      subst hy
      simp; omega

/-- A run of records reads back. -/
theorem readRecords_flatMap {k : TableId} {α : Type} (f : α → List Octet) (g : α → Except RecordCheck (Option Record))
    (hf : ∀ a rest, readRecord k (f a ++ rest) = some (g a, rest)) (l : List α) (fuel : Nat)
    (hfuel : l.length ≤ fuel) : readRecords k fuel (l.flatMap f) = some (l.map g) := by
  induction l generalizing fuel with
  | nil => cases fuel <;> rfl
  | cons a l ih =>
    have hne : f a ≠ [] := by
      intro e
      have := hf a []
      rw [e] at this
      cases this
    obtain ⟨o, os, e⟩ := List.exists_cons_of_ne_nil hne
    cases fuel with
    | zero => simp at hfuel
    | succ fuel =>
      have h1 := hf a (l.flatMap f)
      rw [e] at h1
      simp only [List.flatMap_cons, e, List.cons_append, readRecords] at *
      simp only [h1, Option.bind_eq_bind, Option.bind_some, ih fuel (by simpa using hfuel), List.map_cons]

/-- What READ TABLE answers of tables in range (R40): a count and as many entries, in index order, that read back; as many as were
asked for or a count can say, unless the next one would not fit. -/
theorem Tables.runOctets_spec {t : Tables} (h : t.inRange) (k : TableId) (first count : Nat) :
    ∃ (n : Nat) (octets : List Octet), t.runOctets k first count = nat1 n ++ octets ∧ n ≤ min count 255 ∧
      octets.length ≤ 1486 ∧
      readRecords k octets.length octets = some ((List.range n).map fun j => .ok (t.record? k (first + j))) ∧
      (n < min count 255 → ∀ more, readRecord k more = some (.ok (t.record? k (first + n)), []) →
        1486 < octets.length + more.length) := by
  obtain ⟨n, h1, h2, h3, h4⟩ := fitting_spec
    ((List.range (min count 255)).map fun j => presenceOctets (t.record? k (first + j))) (replyRoom - 1)
  rw [List.length_map, List.length_range] at h1
  have htake : ((List.range (min count 255)).map fun j => presenceOctets (t.record? k (first + j))).take n =
      (List.range n).map fun j => presenceOctets (t.record? k (first + j)) := by
    rw [← List.map_take, List.take_range, Nat.min_eq_left h1]
  rw [htake] at h2 h3 h4
  have hflat : ((List.range n).map fun j => presenceOctets (t.record? k (first + j))).flatten =
      (List.range n).flatMap fun j => presenceOctets (t.record? k (first + j)) := (List.flatMap_def).symm
  rw [hflat] at h3 h4
  refine ⟨n, (List.range n).flatMap fun j => presenceOctets (t.record? k (first + j)), ?_, h1, h3, ?_, fun hn more hm => ?_⟩
  · rw [Tables.runOctets, h2, counted, List.length_map, List.length_range, List.flatMap_id, hflat]
  · refine readRecords_flatMap _ (fun j => .ok (t.record? k (first + j))) (fun j rest => readRecord_presenceOctets h k _ rest)
      _ _ ?_
    rw [List.length_flatMap, List.length_range]
    have : ∀ l : List Nat, l.length ≤ (l.map fun j => (presenceOctets (t.record? k (first + j))).length).sum := by
      intro l
      induction l with
      | nil => simp
      | cons a l ih =>
        have : 1 ≤ (presenceOctets (t.record? k (first + a))).length := by
          cases t.record? k (first + a) <;> simp [presenceOctets]
        simp only [List.length_cons, List.map_cons, List.sum_cons]
        omega
    simpa using this (List.range n)
  · have hl := length_of_readRecord hm
    have := h4 (presenceOctets (t.record? k (first + n))) (by rw [List.getElem?_map, List.getElem?_range hn]; rfl)
    simp only [replyRoom, List.length_nil] at this hl
    omega

end Sys2Proof.Machine
end

