-- ==== Sys2Proof/Laws/Images.lean ====
section
/-! SUPPORT. The image (R181): what its readers read, octet by octet, its adjustment octet, what the flash reads as while a store
writes it (R186), the units of a load up to its end (R183), and what one millisecond makes of a running copy, load or store. -/

namespace Sys2Proof.Octets

/-! ## What a reader that succeeds has read -/

/-- A 1-octet field is read exactly where an octet stands in front. -/
theorem read1_eq_some {os rest : List Octet} {a : Octet} : read1 os = some (a, rest) ↔ os = a :: rest := by
  cases os <;> simp [read1]

/-- Two values of fixed widths are read back from the one they are joined to. -/
theorem append_inj {n m : Nat} {a a' : BitVec n} {b b' : BitVec m} (h : a ++ b = a' ++ b') : a = a' ∧ b = b' := by
  have left : ∀ (a : BitVec n) (b : BitVec m), (a ++ b).extractLsb' m n = a := fun a b => by
    ext i hi; simp [BitVec.getLsbD_append, BitVec.getLsbD_eq_getElem hi]
  have right : ∀ (a : BitVec n) (b : BitVec m), (a ++ b).extractLsb' 0 m = b := fun a b => by
    ext i hi; simp [BitVec.getLsbD_append, hi]
  exact ⟨by rw [← left a b, h, left], by rw [← right a b, h, right]⟩

/-- The octets of two octets joined. -/
theorem be2_append (a b : Octet) : be2 (a ++ b) = [a, b] := by
  obtain ⟨h1, h2⟩ := append_inj (be2_join (a ++ b))
  rw [be2, h1, h2]

/-- The octets of four octets joined. -/
theorem be4_append (a b c d : Octet) : be4 (a ++ b ++ c ++ d) = [a, b, c, d] := by
  obtain ⟨h, h4⟩ := append_inj (be4_join (a ++ b ++ c ++ d))
  obtain ⟨h, h3⟩ := append_inj h
  obtain ⟨h1, h2⟩ := append_inj h
  rw [be4, h1, h2, h3, h4]

/-- A 16-bit field is read exactly where its octets stand in front. -/
theorem read2_eq_some {os rest : List Octet} {v : BitVec 16} : read2 os = some (v, rest) ↔ os = be2 v ++ rest := by
  refine ⟨fun h => ?_, fun h => h ▸ read2_be2 v rest⟩
  match os, h with
  | a :: b :: os, h =>
    simp only [read2, Option.some.injEq, Prod.mk.injEq] at h
    obtain ⟨rfl, rfl⟩ := h
    simp [be2_append]

/-- A 32-bit field is read exactly where its octets stand in front. -/
theorem read4_eq_some {os rest : List Octet} {v : BitVec 32} : read4 os = some (v, rest) ↔ os = be4 v ++ rest := by
  refine ⟨fun h => ?_, fun h => h ▸ read4_be4 v rest⟩
  match os, h with
  | a :: b :: c :: d :: os, h =>
    simp only [read4, Option.some.injEq, Prod.mk.injEq] at h
    obtain ⟨rfl, rfl⟩ := h
    simp [be4_append]

/-- `n` octets are read exactly where as many stand in front. -/
theorem readMany1_eq_some {n : Nat} {os l rest : List Octet} :
    readMany1 n os = some (l, rest) ↔ l.length = n ∧ os = l ++ rest := by
  induction n generalizing os l with
  | zero => cases l <;> simp [readMany1, eq_comm]
  | succ n ih =>
    cases os with
    | nil => cases l <;> simp [readMany1]
    | cons a os =>
      cases l with
      | nil => simp [readMany1]
      | cons b l => simp [readMany1, ih, and_assoc, and_comm]

/-- `n` 16-bit fields are read exactly where their octets stand in front. -/
theorem readMany2_eq_some {n : Nat} {os rest : List Octet} {l : List (BitVec 16)} :
    readMany2 n os = some (l, rest) ↔ l.length = n ∧ os = l.flatMap be2 ++ rest := by
  induction n generalizing os l with
  | zero => cases l <;> simp [readMany2, eq_comm]
  | succ n ih =>
    have step : readMany2 (n + 1) os = (read2 os).bind fun x => (readMany2 n x.2).map fun r => (x.1 :: r.1, r.2) := by
      match os with
      | [] | [_] => rfl
      | a :: b :: os => rfl
    rw [step]
    simp only [Option.bind_eq_some_iff, Option.map_eq_some_iff, Prod.exists, Prod.mk.injEq, read2_eq_some]
    constructor
    · rintro ⟨v, p, rfl, m, q, h, rfl, rfl⟩
      obtain ⟨rfl, rfl⟩ := ih.1 h
      simp
    · rintro ⟨h, rfl⟩
      cases l with
      | nil => cases h
      | cons v m =>
        exact ⟨v, _, by simp, m, rest, ih.2 ⟨by simpa using h, rfl⟩, rfl, rfl⟩

end Sys2Proof.Octets

namespace Sys2Proof.Machine

open Octets

/-! ## The header and the configuration part as a load reads them (R181) -/

/-- The header of an image is read exactly where the 25 octets of R181 stand in front. -/
theorem readHeader_eq_some {os : List Octet} {h : ImageHeader} : readHeader os = some h ↔
    ∃ (counts : Vector (BitVec 16) 6) (config : BitVec 16) (payload : BitVec 32) (checksum : BitVec 16)
      (rest : List Octet),
      os = [0x5C, 0x41, 0x60, 0xA7, 1] ++ counts.toList.flatMap be2 ++ be2 config ++ be4 payload ++ be2 checksum ++ rest ∧
      h = ⟨counts.map BitVec.toNat, config.toNat, payload.toNat, checksum⟩ := by
  have mark : be4 formatMark = [0x5C, 0x41, 0x60, 0xA7] := by decide
  unfold readHeader
  simp only [Option.bind_eq_bind, Option.bind_eq_some_iff, Prod.exists, read1_eq_some, read2_eq_some, read4_eq_some,
    readMany2_eq_some]
  constructor
  · rintro ⟨v, p1, rfl, version, p2, rfl, counts, p3, ⟨hc, rfl⟩, config, p4, rfl, payload, p5, rfl, checksum, p6, rfl, h⟩
    split at h
    · next hm =>
      obtain ⟨rfl, rfl⟩ := hm
      simp only [Option.some.injEq] at h
      subst h
      refine ⟨⟨counts.toArray, by simpa using hc⟩, config, payload, checksum, p6, by simp [mark], ?_⟩
      congr 1
      ext i hi
      simp [tabulate, List.getD_eq_getElem?_getD, hc]
    · cases h
  · rintro ⟨counts, config, payload, checksum, rest, rfl, rfl⟩
    refine ⟨formatMark, _, by rw [mark]; rfl, 1, _, rfl, counts.toList, _, ⟨by simp, by simp [List.append_assoc]⟩, config, _, rfl,
      payload, _, rfl, checksum, rest, rfl, ?_⟩
    simp only [and_self, if_true, Option.some.injEq]
    congr 1
    ext i hi
    simp [tabulate, List.getD_eq_getElem?_getD]

/-- The values of `n` stations are read exactly where a ready limit and nine mode codes of each stand in front. -/
theorem readStations_eq_some {n : Nat} {os rest : List Octet} {l : List (Nat × List Octet)} :
    readStations n os = some (l, rest) ↔ ∃ x : List (BitVec 16 × List Octet), x.length = n ∧ (∀ y ∈ x, y.2.length = 9) ∧
      os = (x.flatMap fun y => be2 y.1 ++ y.2) ++ rest ∧ l = x.map fun y => (y.1.toNat, y.2) := by
  induction n generalizing os l with
  | zero =>
    simp only [readStations, Option.some.injEq, Prod.mk.injEq, List.length_eq_zero_iff]
    constructor
    · rintro ⟨rfl, rfl⟩; exact ⟨[], by simp⟩
    · rintro ⟨x, rfl, -, rfl, rfl⟩; simp
  | succ n ih =>
    simp only [readStations, Option.bind_eq_bind, Option.bind_eq_some_iff, Prod.exists, read2_eq_some, readMany1_eq_some,
      Option.some.injEq, Prod.mk.injEq]
    constructor
    · rintro ⟨limit, p, rfl, modes, p2, ⟨hm, rfl⟩, more, p3, hr, rfl, rfl⟩
      obtain ⟨x, hx, h9, rfl, rfl⟩ := ih.1 hr
      exact ⟨(limit, modes) :: x, by simp [hx], by simpa [hm] using h9, by simp, by simp⟩
    · rintro ⟨x, hx, h9, rfl, rfl⟩
      match x, hx, h9 with
      | (limit, modes) :: x, hx, h9 =>
        simp only [List.forall_mem_cons] at h9
        exact ⟨limit, modes ++ ((x.flatMap fun y => be2 y.1 ++ y.2) ++ rest), by simp, modes, _, ⟨h9.1, rfl⟩, _, rest,
          ih.2 ⟨x, by simpa using hx, h9.2, rfl, rfl⟩, rfl, rfl⟩

/-- `n` sets of gun limits are read exactly where dress limit, hard limit and ceiling of each stand in front. -/
theorem readGuns_eq_some {n : Nat} {os rest : List Octet} {l : List GunLimits} :
    readGuns n os = some (l, rest) ↔ ∃ x : List (BitVec 16 × BitVec 16 × BitVec 16), x.length = n ∧
      os = (x.flatMap fun y => be2 y.1 ++ be2 y.2.1 ++ be2 y.2.2) ++ rest ∧
      l = x.map fun y => ⟨y.1.toNat, y.2.1.toNat, y.2.2.toNat⟩ := by
  induction n generalizing os l with
  | zero =>
    simp only [readGuns, Option.some.injEq, Prod.mk.injEq, List.length_eq_zero_iff]
    constructor
    · rintro ⟨rfl, rfl⟩; exact ⟨[], by simp⟩
    · rintro ⟨x, rfl, rfl, rfl⟩; simp
  | succ n ih =>
    simp only [readGuns, Option.bind_eq_bind, Option.bind_eq_some_iff, Prod.exists, read2_eq_some, Option.some.injEq,
      Prod.mk.injEq]
    constructor
    · rintro ⟨dress, p, rfl, hard, p2, rfl, ceiling, p3, rfl, more, p4, hr, rfl, rfl⟩
      obtain ⟨x, hx, rfl, rfl⟩ := ih.1 hr
      exact ⟨(dress, hard, ceiling) :: x, by simp [hx], by simp, by simp⟩
    · rintro ⟨x, hx, rfl, rfl⟩
      match x, hx with
      | (dress, hard, ceiling) :: x, hx =>
        exact ⟨dress, be2 hard ++ (be2 ceiling ++ ((x.flatMap fun y => be2 y.1 ++ be2 y.2.1 ++ be2 y.2.2) ++ rest)),
          by simp, hard, _, rfl, ceiling, _, rfl, _, rest, ih.2 ⟨x, by simpa using hx, rfl, rfl⟩, rfl, rfl⟩

/-- The configuration part of an image is read exactly where its values stand in front in the order of R181. -/
theorem readConfig_eq_some {os rest : List Octet} {c : ImageConfig} : readConfig os = some (c, rest) ↔
    ∃ (protocolType : BitVec 16) (own controller tracker : Node) (stationCount : Octet) (slotCounts : List Octet)
      (robots : List Node) (stations : List (BitVec 16 × List Octet)) (holdScope : Octet)
      (guns : List (BitVec 16 × BitVec 16 × BitVec 16)),
      slotCounts.length = stationCount.toNat ∧ robots.length = (slotCounts.map BitVec.toNat).sum ∧
      stations.length = stationCount.toNat ∧ (∀ y ∈ stations, y.2.length = 9) ∧
      guns.length = (slotCounts.map BitVec.toNat).sum ∧
      os = be2 protocolType ++ be2 own ++ be2 controller ++ be2 tracker ++ [stationCount] ++ slotCounts ++
        robots.flatMap be2 ++ (stations.flatMap fun y => be2 y.1 ++ y.2) ++ [holdScope] ++
        (guns.flatMap fun y => be2 y.1 ++ be2 y.2.1 ++ be2 y.2.2) ++ rest ∧
      c = ⟨⟨protocolType, own, controller, if tracker = 0 then none else some tracker, stationCount.toNat,
          slotCounts.map BitVec.toNat, robots⟩, stations.map fun y => (y.1.toNat, y.2), holdScope,
        guns.map fun y => ⟨y.1.toNat, y.2.1.toNat, y.2.2.toNat⟩⟩ := by
  unfold readConfig
  simp only [Option.bind_eq_bind, Option.bind_eq_some_iff, Prod.exists, read1_eq_some, read2_eq_some, readMany1_eq_some,
    readMany2_eq_some, readStations_eq_some, readGuns_eq_some, Option.some.injEq, Prod.mk.injEq]
  constructor
  · rintro ⟨p, q1, rfl, own, q2, rfl, ctl, q3, rfl, trk, q4, rfl, n, q5, rfl, counts, q6, ⟨h1, rfl⟩, robots, q7, ⟨h2, rfl⟩, _,
      q8, ⟨x, h3, h4, rfl, rfl⟩, scope, q9, rfl, _, q10, ⟨y, h5, rfl, rfl⟩, rfl, rfl⟩
    exact ⟨p, own, ctl, trk, n, counts, robots, x, scope, y, h1, h2, h3, h4, h5, by simp, rfl⟩
  · rintro ⟨p, own, ctl, trk, n, counts, robots, x, scope, y, h1, h2, h3, h4, h5, rfl, rfl⟩
    exact ⟨p, _, by simp only [List.append_assoc, List.cons_append, List.nil_append], own, _, rfl, ctl, _, rfl, trk, _, rfl, n, _, rfl, counts, _, ⟨h1, rfl⟩,
      robots, _, ⟨h2, rfl⟩, _, _, ⟨x, h3, h4, rfl, rfl⟩, scope, _, rfl, _, rest, ⟨y, h5, rfl, rfl⟩, rfl, rfl⟩

/-! ## The configuration part and the table records as a store lays them out (R181) -/

/-- The code of a mode, case by case. -/
theorem FaultMode.code_eq (m : FaultMode) : m.code = match m with | .hold => 0 | .pass => 1 | .warn => 2 | .off => 3 := by
  cases m <;> rfl

/-- The configuration part a store writes, value by value. -/
theorem State.configOctets_eq (s : State) :
    let stations := (List.finRange 4).filter fun st => st.val < s.tracker.stationCount
    let slots := (List.finRange 32).filter s.slotConfigured
    s.configOctets = be2 s.filter.protocolType ++ be2 s.filter.ownNode ++
      be2 (s.filter.controllerNode.getD Config.unconfiguredController) ++ be2 (s.filter.trackerNode.getD 0) ++
      nat1 s.tracker.stationCount ++ (stations.flatMap fun st => nat1 s.tracker.slotCounts[st]) ++
      (slots.flatMap fun g => be2 ((s.robotNode? g).getD 0)) ++
      (stations.flatMap fun st => nat2 (s.station st).readyLimit ++
        [.readyTimeout, .readyRefused, .cycleTimeout, .shortCycle, .spotShortfall, .qualityReject, .wearOverrun,
          .expansionError, .unknownStyle].flatMap fun k =>
            nat1 (match s.mode st k with | .hold => 0 | .pass => 1 | .warn => 2 | .off => 3)) ++
      ([match s.holdScope with | .station => 0 | .wholeSection => 1] : List Octet) ++
      (slots.flatMap fun g => nat2 (s.gun g).dressLimit ++ nat2 (s.gun g).hardLimit ++ nat2 (s.gun g).ceiling) := by
  have hs : List.finRange 32 = allSlots := by decide
  have hc : ([match s.holdScope with | .station => 0 | .wholeSection => 1] : List Octet) = nat1 s.holdScope.code := by
    cases s.holdScope <;> rfl
  simp only [hs, hc, State.configOctets, FaultMode.code_eq, allKinds]
  rfl

/-- The table records a store writes, field by field, table by table. -/
theorem Tables.recordOctets_eq (b : Tables) : b.records.flatMap imageRecord =
    (b.styles.flatMap fun x => [0] ++ nat2 x.1 ++ be2 x.2.code ++ nat1 x.2.row) ++
      (b.matrix.flatMap fun x => [1] ++ nat2 x.1 ++ nat2 x.2.basePlan ++ nat1 x.2.span) ++
      (b.overlays.flatMap fun x => [2] ++ nat2 x.1 ++ nat1 x.2.optionBit ++
        (match x.2.row with | none => [255] | some row => nat1 row) ++ nat1 x.2.slot ++
        ([match x.2.action with | .substitute => 0 | .append => 1] : List Octet) ++ nat2 x.2.plan) ++
      (b.plans.flatMap fun x => [3] ++ nat2 x.1 ++ nat1 x.2.program ++ nat2 x.2.cycleMin ++ nat2 x.2.cycleMax ++
        nat1 x.2.steps.length ++ x.2.steps.flatMap fun y => match y with
          | .group schedule spots => [0] ++ nat1 schedule ++ nat1 spots
          | .call plan => [1] ++ nat2 plan) ++
      (b.schedules.flatMap fun x => [4] ++ nat2 x.1 ++ nat2 x.2.base ++ nat2 x.2.weldTime ++ nat1 x.2.curve) ++
      (b.curves.flatMap fun x => [5] ++ nat2 x.1 ++ nat1 x.2.length ++
        x.2.flatMap fun p => nat2 p.wear ++ nat2 p.raise) := by
  have step : (fun y : PlanStep => match y with
      | .group schedule spots => [0] ++ nat1 schedule ++ nat1 spots
      | .call plan => [1] ++ nat2 plan) = stepOctets := by
    funext y; cases y <;> rfl
  have overlay : ∀ x : Nat × OverlayEntry, imageRecord (.overlays, x.1, .overlay x.2) =
      ([2] : List Octet) ++ nat2 x.1 ++ nat1 x.2.optionBit ++ (match x.2.row with | none => [255] | some row => nat1 row) ++ nat1 x.2.slot ++
        ([match x.2.action with | .substitute => 0 | .append => 1] : List Octet) ++ nat2 x.2.plan := by
    rintro ⟨i, bit, row, slot, action, plan⟩
    cases row <;> cases action <;> rfl
  have style : ∀ x : Nat × StyleEntry, imageRecord (.styles, x.1, .style x.2) =
      ([0] : List Octet) ++ nat2 x.1 ++ be2 x.2.code ++ nat1 x.2.row := fun _ => rfl
  have cell : ∀ x : Nat × MatrixCell, imageRecord (.matrix, x.1, .cell x.2) =
      ([1] : List Octet) ++ nat2 x.1 ++ nat2 x.2.basePlan ++ nat1 x.2.span := fun _ => rfl
  have plan : ∀ x : Nat × PlanEntry, imageRecord (.plans, x.1, .plan x.2) =
      ([3] : List Octet) ++ nat2 x.1 ++ nat1 x.2.program ++ nat2 x.2.cycleMin ++ nat2 x.2.cycleMax ++ nat1 x.2.steps.length ++
        x.2.steps.flatMap stepOctets := fun x => by simp [imageRecord, Record.octets, counted, nat1, TableId.number]
  have schedule : ∀ x : Nat × ScheduleEntry, imageRecord (.schedules, x.1, .schedule x.2) =
      ([4] : List Octet) ++ nat2 x.1 ++ nat2 x.2.base ++ nat2 x.2.weldTime ++ nat1 x.2.curve := fun _ => rfl
  have curve : ∀ x : Nat × List Breakpoint, imageRecord (.curves, x.1, .curve x.2) =
      ([5] : List Octet) ++ nat2 x.1 ++ nat1 x.2.length ++ x.2.flatMap fun p => nat2 p.wear ++ nat2 p.raise := fun x => by
    simp [imageRecord, Record.octets, counted, nat1, TableId.number]
  simp only [step, Tables.records, List.flatMap_append, List.flatMap_map, style, cell, overlay, plan, schedule, curve]

/-- The header a store writes before its checksum: 23 octets. -/
theorem headerOctets_eq (h : ImageHeader) : headerOctets h = [0x5C, 0x41, 0x60, 0xA7, 1] ++ h.recordCounts.toList.flatMap nat2 ++
    nat2 h.configLength ++ nat4 h.payloadLength := by
  have mark : be4 formatMark = [0x5C, 0x41, 0x60, 0xA7] := by decide
  simp [headerOctets, mark]

/-! ## The flash (R181, R186) -/

/-- What the flash reads as, octet by octet: an octet behind the last one written is erased. -/
theorem flashRead_eq (flash : List Octet) (offset n : Nat) :
    flashRead flash offset n = (List.range n).map fun i => (flash[offset + i]?).getD 255 := by
  refine List.ext_getElem? fun i => ?_
  unfold flashRead
  by_cases hi : i < n
  · rw [List.getElem?_take_of_lt hi, List.getElem?_append]
    simp only [List.length_take, List.length_drop, List.getElem?_map, List.getElem?_range hi, Option.map_some]
    split
    · next h =>
      rw [List.getElem?_take_of_lt hi, List.getElem?_drop, List.getElem?_eq_getElem (by omega)]; rfl
    · next h =>
      rw [List.getElem?_replicate_of_lt (by omega), List.getElem?_eq_none (by omega)]; rfl
  · simp [hi]

/-- The flash while a store runs, octet by octet: the checksum field reads as erased, header and payload as far as written. -/
theorem getD_storeWritten (stored : List Octet) (n i : Nat) (hn : n ≤ stored.length) :
    ((storeWritten stored n)[i]?).getD 255 =
      if i < 23 then ((stored.take n)[i]?).getD 255 else if i < 25 then 255 else ((stored.take n)[i - 2]?).getD 255 := by
  unfold storeWritten
  split
  · next h =>
    split
    · rfl
    · split
      · rw [List.getElem?_eq_none (by simp; omega)]; rfl
      · rw [List.getElem?_eq_none (by simp; omega), List.getElem?_eq_none (by simp; omega)]
  · next h =>
    rw [List.append_assoc, List.getElem?_append]
    simp only [List.length_take, Nat.min_eq_left (show 23 ≤ stored.length by omega)]
    split
    · next hi => rw [List.getElem?_take_of_lt hi, List.getElem?_take_of_lt (by omega)]
    · next hi =>
      split
      · next hj =>
        obtain rfl | rfl : i = 23 ∨ i = 24 := by omega
        · rfl
        · rfl
      · next hj =>
        rw [List.getElem?_append_right (by simp; omega)]
        simp only [List.length_cons, List.length_nil, List.getElem?_take, List.getElem?_drop]
        rw [show 23 + (i - 23 - (0 + 1 + 1)) = i - 2 by omega]
        by_cases hk : i - 2 < n
        · rw [if_pos hk, if_pos (by omega)]
        · rw [if_neg hk, if_neg (by omega)]

/-- The adjustment octet is 0 or 1, and the sum of the payload that ends with it is not 65,535 (R181). -/
theorem adjustment_spec (body : List Octet) : (adjustment (octetSum body) = 0 ∨ adjustment (octetSum body) = 1) ∧
    octetSum (body ++ [adjustment (octetSum body)]) ≠ 65535 := by
  have sum : ∀ a : Octet, octetSum (body ++ [a]) = octetSum body + BitVec.ofNat 16 a.toNat := fun a => by
    simp [octetSum, BitVec.ofNat_add]
  rw [sum]
  generalize octetSum body = v
  unfold adjustment
  split
  · next h => subst h; decide
  · split
    · next h => subst h; decide
    · next h1 h2 =>
      split
      · exact ⟨.inr rfl, fun h => h2 (by bv_omega)⟩
      · exact ⟨.inl rfl, fun h => h1 (by simpa using h)⟩

/-! ## The units of a load (R183) -/

/-- A load that has ended makes no further unit. -/
theorem loadUnit_ended {flash : List Octet} {x : Loader × Tables} (h : x.1.phase = .passed ∨ x.1.phase = .failed) :
    loadUnit flash x = x := by
  unfold loadUnit
  rcases h with h | h <;> simp [h]

/-- Some units of a load are as many single ones. -/
theorem loadUnits_eq_iterate (flash : List Octet) (n : Nat) (x : Loader × Tables) :
    loadUnits flash n x = (loadUnit flash)^[n] x := by
  induction n generalizing x with
  | zero => rfl
  | succ n ih =>
    unfold loadUnits
    split
    · next h => exact (Function.iterate_fixed (loadUnit_ended h) _).symm
    · rw [ih]; rfl

/-- Every entry of the six tables, by table and index. -/
def entries : List (TableId × Nat) :=
  [TableId.styles, .matrix, .overlays, .plans, .schedules, .curves].flatMap fun k =>
    (List.range k.capacity).map fun i => (k, k.firstIndex + i)

theorem length_entries : entries.length = copyTotal := by
  simp [entries, TableId.capacity, copyTotal]

theorem mem_entries {k : TableId} {i : Nat} (h : k.inRange i = true) : (k, i) ∈ entries := by
  simp only [TableId.inRange, Bool.and_eq_true, decide_eq_true_eq] at h
  refine List.mem_flatMap.2 ⟨k, by cases k <;> simp, List.mem_map.2 ⟨i - k.firstIndex, List.mem_range.2 (by omega), ?_⟩⟩
  rw [Nat.add_sub_cancel' h.1]

/-- The most units a load still makes: the header, the configuration, each entry not read yet, and the end. -/
def Loader.unitsLeft (l : Loader) : Nat :=
  let unread := (entries.toFinset.filter fun x => x ∉ l.seen).card
  match l.phase with
  | .header => unread + 3
  | .config => unread + 2
  | .records => unread + 1
  | .passed | .failed => 0

theorem Loader.unitsLeft_le (l : Loader) : l.unitsLeft ≤ loadFuel := by
  have h : (entries.toFinset.filter fun x => x ∉ l.seen).card ≤ copyTotal :=
    (Finset.card_filter_le _ _).trans ((List.toFinset_card_le _).trans length_entries.le)
  unfold Loader.unitsLeft loadFuel
  dsimp only
  split <;> omega

/-- What one record makes of a load: it fails, or an entry not read before has been read. -/
theorem loadRecord_cases (flash : List Octet) (l : Loader) (t : Tables) : (loadRecord flash l t).1.phase = .failed ∨
    ∃ k i, k.inRange i = true ∧ (k, i) ∉ l.seen ∧ (loadRecord flash l t).1.phase = l.phase ∧
      (loadRecord flash l t).1.seen = (k, i) :: l.seen := by
  unfold loadRecord
  split
  · next table hi lo fields _ =>
    split
    · exact .inl rfl
    · next k _ =>
      dsimp only
      split
      · exact .inl rfl
      · next h =>
        split
        · split
          · exact .inl rfl
          · refine .inr ⟨k, (hi ++ lo).toNat, ?_, ?_, rfl, rfl⟩
            · cases hr : k.inRange (hi ++ lo).toNat <;> simp_all
            · simp_all
        · exact .inl rfl
        · exact .inl rfl
  · exact .inl rfl

/-- Each unit of a load that has not ended leaves fewer. -/
theorem unitsLeft_loadUnit {flash : List Octet} {x : Loader × Tables}
    (h : ¬(x.1.phase = .passed ∨ x.1.phase = .failed)) : (loadUnit flash x).1.unitsLeft < x.1.unitsLeft := by
  have failed : ∀ l : Loader, l.phase = .failed → l.unitsLeft = 0 := fun l h => by unfold Loader.unitsLeft; simp [h]
  have passed : ∀ l : Loader, l.phase = .passed → l.unitsLeft = 0 := fun l h => by unfold Loader.unitsLeft; simp [h]
  have left : 0 < x.1.unitsLeft := by
    unfold Loader.unitsLeft
    cases hp : x.1.phase <;> simp_all
  have ends : ∀ l : Loader, l.phase = .failed → l.unitsLeft < x.1.unitsLeft := fun l h => by rw [failed l h]; exact left
  unfold loadUnit
  dsimp only
  split
  · next hp =>
    split
    · simp [Loader.unitsLeft, hp]
    · exact ends _ rfl
  · next hp _ =>
    split
    · split
      · simp [Loader.unitsLeft, hp]
      · exact ends _ rfl
    · exact ends _ rfl
    · exact ends _ rfl
  · next hp _ =>
    split
    · rcases loadRecord_cases flash x.1 x.2 with hf | ⟨k, i, hr, hn, hs, he⟩
      · exact ends _ hf
      · simp only [Loader.unitsLeft, hs, hp, he, add_lt_add_iff_right]
        refine Finset.card_lt_card ⟨fun y hy => ?_, fun hsub => ?_⟩
        · simp only [Finset.mem_filter, List.mem_cons, not_or] at hy ⊢
          exact ⟨hy.1, hy.2.2⟩
        · have := hsub (Finset.mem_filter.2 ⟨List.mem_toFinset.2 (mem_entries hr), hn⟩)
          simp at this
    · split
      · unfold loadFinish
        dsimp only
        split
        · rw [passed _ rfl]; exact left
        · exact ends _ rfl
      · exact ends _ rfl
  · exact ends _ rfl
  · exact ends _ rfl
  · next hp => exact absurd (.inl hp) h
  · next hp => exact absurd (.inr hp) h

/-- A load carried on by as many units as it can make has passed or failed. -/
theorem loadUnits_ends (flash : List Octet) {n : Nat} {x : Loader × Tables} (h : x.1.unitsLeft ≤ n) :
    (loadUnits flash n x).1.phase = .passed ∨ (loadUnits flash n x).1.phase = .failed := by
  induction n generalizing x with
  | zero =>
    by_contra hp
    have hl := unitsLeft_loadUnit (flash := flash) (x := x) hp
    omega
  | succ n ih =>
    unfold loadUnits
    split
    · next hp => exact hp
    · next hp => exact ih (by have := unitsLeft_loadUnit (flash := flash) hp; omega)

/-- What a load read to its end leaves: the units it made, the last of which passed or failed it (R183). -/
theorem State.finishLoad_ends (s : State) :
    let l := s.finishLoad true
    (∃ n, (l.loader, l.banks.tables s.loadTarget) =
      (loadUnit s.flash)^[n] (s.loader, s.banks.tables s.loadTarget)) ∧
    (l.loader.phase = .passed ∨ l.loader.phase = .failed) := by
  refine ⟨⟨loadFuel, ?_⟩, loadUnits_ends s.flash (Loader.unitsLeft_le _)⟩
  rw [← loadUnits_eq_iterate]
  simp only [State.finishLoad, State.advanceLoad, if_true, State.setBanks, State.setLoader]
  cases s.loadTarget <;> rfl

/-- A load whose flash does not answer fails where it stands, unless it has passed already (log entry 20). -/
theorem State.finishLoad_silent (s : State) :
    s.finishLoad false = if s.loader.phase = .passed then s else s.setLoader s.loader.fail := rfl

/-- The end of a load that has passed already changes nothing, whatever its completion says of the flash (log entry 20). -/
theorem State.finishLoad_passed {s : State} (h : s.loader.phase = .passed) (answers : Bool) : s.finishLoad answers = s := by
  cases answers with
  | false => rw [State.finishLoad_silent, if_pos h]
  | true =>
    have done : loadUnits s.flash loadFuel (s.loader, s.banks.tables s.loadTarget) =
        (s.loader, s.banks.tables s.loadTarget) := by
      unfold loadFuel loadUnits
      rw [if_pos (.inl h)]
    simp only [State.finishLoad, State.advanceLoad, if_true, done]
    cases s.loadTarget <;> rfl

/-! ## One millisecond of a transfer (R42, R183, R186) -/

/-- An entry of a table partly copied: the source's below the cut, the target's from it on. -/
theorem tableGet_mergeAt {α : Type} (cut : Nat) (source target : List (Nat × α)) (i : Nat) :
    tableGet (mergeAt cut source target) i = if i < cut then tableGet source i else tableGet target i := by
  have none' : ∀ (l : List (Nat × α)) (p : Nat × α → Bool), (∀ e, p e = true → e.1 ≠ i) →
      (l.filter p).find? (fun e => e.1 == i) = none := fun l p h =>
    List.find?_eq_none.2 fun e he => by simpa using h e (List.mem_filter.1 he).2
  have same : ∀ (l : List (Nat × α)) (p : Nat × α → Bool), (∀ e, e.1 = i → p e = true) →
      (l.filter p).find? (fun e => e.1 == i) = l.find? (fun e => e.1 == i) := fun l p h => by
    rw [List.find?_filter]
    congr 1
    funext e
    by_cases he : e.1 = i <;> simp [he, h e]
  unfold tableGet mergeAt
  rw [List.find?_append]
  split
  · rw [same _ _ fun e he => by simpa [he], none' _ _ fun e he => by simp at he; omega, Option.or_none]
  · rw [none' _ _ fun e he => by simp at he; omega, same _ _ fun e he => by simp [he]; omega, Option.none_or]

/-- How many entries a COPY BANK copies before the first of a table (R42). -/
def TableId.copiedBefore (k : TableId) : Nat := [0, 64, 2112, 2240, 2752, 2816].getD k.number.val 0

/-- An entry of a bank partly copied, in the order of R42: the source's where it has been reached, the former one elsewhere. -/
theorem record?_copyTables (n : Nat) (source target : Tables) {k : TableId} {i : Nat} (h : k.inRange i = true) :
    (copyTables n source target).record? k i =
      if k.copiedBefore + (i - k.firstIndex) < n then source.record? k i else target.record? k i := by
  simp only [TableId.inRange, Bool.and_eq_true, decide_eq_true_eq] at h
  have pick : ∀ {α : Type} {f : α → Record} {c : Nat} (x y : List (Nat × α)),
      (i < c ↔ k.copiedBefore + (i - k.firstIndex) < n) → (tableGet (mergeAt c x y) i).map f =
        if k.copiedBefore + (i - k.firstIndex) < n then (tableGet x i).map f else (tableGet y i).map f := by
    intro α f c x y hc
    rw [tableGet_mergeAt]
    by_cases hi : i < c
    · rw [if_pos hi, if_pos (hc.1 hi)]
    · rw [if_neg hi, if_neg fun h => hi (hc.2 h)]
  cases k <;> refine pick _ _ ?_ <;>
    simp only [TableId.copiedBefore, TableId.number, TableId.firstIndex, List.getD_eq_getElem?_getD] at h ⊢ <;> simp <;>
    omega

/-- An entry of a bank partly copied is the source's or the former one, whatever its index. -/
theorem record?_copyTables_cases (n : Nat) (source target : Tables) (k : TableId) (i : Nat) :
    (copyTables n source target).record? k i = source.record? k i ∨
      (copyTables n source target).record? k i = target.record? k i := by
  cases k <;> simp only [Tables.record?, copyTables, tableGet_mergeAt] <;> split <;> simp

/-- A load carried on is still the same activity. -/
theorem activity_loadUnit (flash : List Octet) (x : Loader × Tables) : (loadUnit flash x).1.activity = x.1.activity := by
  unfold loadUnit loadRecord loadFinish Loader.fail
  dsimp only
  repeat' split
  all_goals rfl

end Sys2Proof.Machine
end

