-- ==== Sys2Proof/Laws/Keeps.lean ====
section
/-! SUPPORT. What the dispatch of bodies keeps: one telegram for a slot in the Cell own-telegram queue (R98), bank tags that name
the ACTIVE or the DRAINING bank (R35), REWORK records ahead of NORMAL ones that have not started (R7), and QUEUED records as they
were created (R2). -/

namespace Sys2Proof.Machine

/-- An operation that keeps the Cell own-telegram queue, the bank tags, and the order and the QUEUED records of the Station
Queues. -/
structure Keeps (s t : State) : Prop where
  cells : s.cellKept → t.cellKept
  banks : s.bankTagsKept → t.bankTagsKept
  order : s.reworkFirst → t.reworkFirst
  fresh : s.queuedFresh → t.queuedFresh

namespace Keeps

theorem refl (s : State) : Keeps s s := ⟨id, id, id, id⟩

/-- Two operations one after the other, the later one first. -/
theorem after {s t u : State} (k : Keeps t u) (h : Keeps s t) : Keeps s u :=
  ⟨fun x => k.cells (h.cells x), fun x => k.banks (h.banks x), fun x => k.order (h.order x),
    fun x => k.fresh (h.fresh x)⟩

theorem foldl {α : Type} {f : State → α → State} (h : ∀ s a, Keeps s (f s a)) (l : List α) (s : State) :
    Keeps s (l.foldl f s) := by
  induction l generalizing s with
  | nil => exact refl s
  | cons a rest ih => exact after (ih _) (h s a)

/-- The slots of a queue without those of one slot. -/
theorem nodup_drop {l : List CellTelegram} (h : (l.map (·.slot)).Nodup) (p : CellTelegram → Bool) :
    ((l.filter p).map (·.slot)).Nodup := List.Nodup.sublist (List.filter_sublist.map _) h

/-- A telegram at the back of a queue that holds none of its slot. -/
theorem nodup_push {l : List CellTelegram} {x : CellTelegram} (h : (l.map (·.slot)).Nodup)
    (hx : ∀ y ∈ l, y.slot ≠ x.slot) : ((l ++ [x]).map (·.slot)).Nodup := by
  rw [List.map_append]
  refine List.nodup_append.2 ⟨h, by simp, fun a ha b hb => ?_⟩
  obtain ⟨y, hy, rfl⟩ := List.mem_map.1 ha
  obtain rfl := by simpa using hb
  exact hx y hy

/-- A change that keeps the stations, both own-telegram queues, the current tags, and the states of the banks. -/
theorem of_eq {s t : State} (h : t.tracker.stations = s.tracker.stations) (hu : t.ports.uplinkOwn = s.ports.uplinkOwn)
    (hc : t.ports.cellOwn = s.ports.cellOwn) (hg : ∀ g, (t.tagState g).current = (s.tagState g).current)
    (hb : t.banks.active = s.banks.active ∧ t.banks.other = s.banks.other) : Keeps s t := by
  have hq : t.queued = s.queued := by simp [State.queued, State.station, h]
  have hr : t.releasing = s.releasing := by simp [State.releasing, hu]
  refine ⟨fun k => ?_, fun k => ?_, fun k st => by rw [State.station_congr h]; exact k st,
    fun k st => by rw [State.station_congr h]; exact k st⟩
  · unfold State.cellKept
    rw [hc]
    exact ⟨k.1, fun x hx => by rw [hg]; exact k.2 x hx⟩
  · unfold State.bankTagsKept
    rw [hb.1, hb.2, State.recordsInUse, hq, hr]
    exact k

theorem setStation (s : State) (st : StationId) (x : Station)
    (h : ∀ y ∈ x.queue, ∃ z ∈ (s.station st).queue, y.bankTag = z.bankTag ∧ (y.state = .queued → y = z))
    (ho : Machine.reworkFirst (s.station st).queue → Machine.reworkFirst x.queue) : Keeps s (s.setStation st x) := by
  refine ⟨id, fun k r hr => ?_, fun k st' => ?_, fun k st' r hr hs => ?_⟩
  · rcases List.mem_append.1 hr with hr | hr
    · obtain ⟨st', hst, hr⟩ := List.mem_flatMap.1 hr
      by_cases e : st' = st
      · subst e
        rw [State.station_setStation_self] at hr
        obtain ⟨z, hz, he⟩ := h r hr
        rw [he.1]
        exact k z (List.mem_append_left _ (List.mem_flatMap.2 ⟨st', hst, hz⟩))
      · rw [State.station_setStation_ne _ _ e] at hr
        exact k r (List.mem_append_left _ (List.mem_flatMap.2 ⟨st', hst, hr⟩))
    · exact k r (List.mem_append_right _ hr)
  · by_cases e : st' = st
    · subst e
      rw [State.station_setStation_self]
      exact ho (k st')
    · rw [State.station_setStation_ne _ _ e]
      exact k st'
  · by_cases e : st' = st
    · subst e
      rw [State.station_setStation_self] at hr
      obtain ⟨z, hz, _, he⟩ := h r hr
      obtain rfl := he hs
      exact k st' r hz hs
    · rw [State.station_setStation_ne _ _ e] at hr
      exact k st' r hr hs

theorem setFlag (s : State) (f : EventFlag) : Keeps s (s.setFlag f) := of_eq rfl rfl rfl (fun _ => rfl) ⟨rfl, rfl⟩

theorem setFlagIf (s : State) (c : Bool) (f : EventFlag) : Keeps s (s.setFlagIf c f) := by
  cases c
  · exact refl s
  · exact setFlag s f

theorem setStationState (s : State) (st : StationId) (x : StationState) : Keeps s (s.setStationState st x) :=
  setStation s st _ (fun y hy => ⟨y, hy, rfl, fun _ => rfl⟩) id

/-- A head that keeps its origin and stays ACTIVE keeps its queue's order. -/
theorem reworkFirst_modifyHead {x : Station} {f : BodyRecord → BodyRecord}
    (hf : ∀ r, (f r).origin = r.origin ∧ (f r).state = r.state) (h : Machine.reworkFirst x.queue) :
    Machine.reworkFirst (x.modifyHead f).queue := by
  unfold Station.modifyHead
  split
  · next r rest hq =>
    split
    · unfold Machine.reworkFirst at h ⊢
      rw [hq] at h
      obtain ⟨h1, h2⟩ := List.pairwise_cons.1 h
      exact List.pairwise_cons.2 ⟨fun y hy ho hs => h1 y hy ((hf r).1 ▸ ho) ((hf r).2 ▸ hs), h2⟩
    · exact h
  · exact h

/-- A head is ACTIVE: a change of one that keeps its state leaves the QUEUED records. -/
theorem queuedFresh_modifyHead (s : State) (st : StationId) (f : BodyRecord → BodyRecord) (hf : ∀ r, (f r).state = r.state)
    (h : s.queuedFresh) : (s.modifyHead st f).queuedFresh := by
  intro st' r hr hs
  by_cases e : st' = st
  · subst e
    rw [State.modifyHead, State.station_setStation_self] at hr
    unfold Station.modifyHead at hr
    split at hr
    · next x rest hq =>
      split at hr
      · next ha =>
        rcases List.mem_cons.1 hr with rfl | hr
        · rw [hf, ha] at hs
          cases hs
        · exact h st' r (by rw [hq]; exact List.mem_cons_of_mem _ hr) hs
      · exact h st' r hr hs
    · exact h st' r hr hs
  · rw [State.modifyHead, State.station_setStation_ne _ _ e] at hr
    exact h st' r hr hs

theorem modifyHead (s : State) (st : StationId) (f : BodyRecord → BodyRecord)
    (hf : ∀ r, (f r).bankTag = r.bankTag ∧ (f r).origin = r.origin ∧ (f r).state = r.state) :
    Keeps s (s.modifyHead st f) := by
  refine setStation s st _ (fun y hy => ?_) (reworkFirst_modifyHead fun r => (hf r).2)
  unfold Station.modifyHead at hy
  split at hy
  · next r rest hq =>
    split at hy
    · next ha =>
      rcases List.mem_cons.1 hy with rfl | hy
      · exact ⟨r, by simp [hq], (hf r).1, fun h => by rw [(hf r).2.2, ha] at h; cases h⟩
      · exact ⟨y, by simp [hq, hy], rfl, fun _ => rfl⟩
    · exact ⟨y, hy, rfl, fun _ => rfl⟩
  · exact ⟨y, hy, rfl, fun _ => rfl⟩

theorem modifyEntry (s : State) (g : SlotId) (f : SlotEntry → SlotEntry) : Keeps s (s.modifyEntry g f) :=
  modifyHead s _ _ fun _ => ⟨rfl, rfl, rfl⟩

theorem addEntry (s : State) (g : SlotId) (e : SlotEntry) : Keeps s (s.addEntry g e) :=
  modifyHead s _ _ fun _ => ⟨rfl, rfl, rfl⟩

theorem setGun (s : State) (g : SlotId) (x : Gun) : Keeps s (s.setGun g x) := of_eq rfl rfl rfl (fun _ => rfl) ⟨rfl, rfl⟩

/-- A tag state written with its current tag kept. -/
theorem setTag (s : State) (g : SlotId) (x : TagState) (h : x.current = (s.tagState g).current) :
    Keeps s (s.setTag g x) := by
  refine of_eq rfl rfl rfl (fun g' => ?_) ⟨rfl, rfl⟩
  by_cases e : g' = g
  · subst e; rw [State.tagState_setTag_self, h]
  · rw [State.tagState_setTag_ne _ _ e]

theorem dropCell (s : State) (g : SlotId) : Keeps s (s.dropCell g) :=
  ⟨fun h => ⟨nodup_drop h.1 _, fun x hx => h.2 x (List.mem_filter.1 hx).1⟩, id, id, id⟩

theorem disown (s : State) (st : StationId) : Keeps s (s.disown st) := by
  refine of_eq rfl rfl rfl (fun g => ?_) ⟨rfl, rfl⟩
  simp only [State.tagState, State.disown, State.setTags_tags, tabulate, Fin.getElem_fin, Vector.getElem_ofFn]
  split <;> rfl

theorem setFree (s : State) (n : Nat) : Keeps s (s.setFree n) := of_eq rfl rfl rfl (fun _ => rfl) ⟨rfl, rfl⟩

theorem afterResolution (s : State) (g : SlotId) (x : Resolution) : Keeps s (s.afterResolution g x) := by
  unfold State.afterResolution
  exact after (setFlagIf _ _ _) (after (setFlagIf _ _ _) (of_eq rfl rfl rfl (fun _ => rfl) ⟨rfl, rfl⟩))

/-- A bank whose tag count is 0 leaves DRAINING. -/
theorem drainTest (s : State) : Keeps s s.drainTest := by
  unfold State.drainTest; split
  · next h =>
    refine ⟨id, fun _ r hr => ?_, id, id⟩
    have h0 : s.tagCount s.banks.active.other = 0 := h.2
    have := List.countP_eq_zero.1 h0 r hr
    refine .inl ?_
    show r.bankTag = s.banks.active
    revert this
    cases r.bankTag <;> cases s.banks.active <;> simp [BankId.other]
  · exact refl s

theorem countAt (s : State) (st : StationId) (f : StationCounters → StationCounters) : Keeps s (s.countAt st f) :=
  setStation s st _ (fun y hy => ⟨y, hy, rfl, fun _ => rfl⟩) id

theorem offerCopy (st : StationId) (content : CopyContent) (s : State) (c : ChannelId) :
    Keeps s (Machine.offerCopy st content s c) := by
  unfold Machine.offerCopy
  simp only
  split
  · split
    · refine after (setFlagIf _ _ _) ⟨id, fun h r hr => h r ?_, id, id⟩
      simpa [State.recordsInUse, State.queued, State.station, State.releasing, UplinkTelegram.releaseRecord?] using hr
    · exact of_eq rfl rfl rfl (fun _ => rfl) ⟨rfl, rfl⟩
  · exact refl s

/-! ## The Mirror Unit (R178, R179) -/

theorem mirror (s : State) (st : StationId) (content : CopyContent) : Keeps s (s.mirror st content) :=
  foldl (offerCopy st content) _ s

theorem mirrorFault (s : State) (g : SlotId) (k : FaultKind) : Keeps s (s.mirrorFault g k) := by
  unfold State.mirrorFault; split
  · exact mirror _ _ _
  · exact refl s

theorem mirrorDone (s : State) (g : SlotId) : Keeps s (s.mirrorDone g) := by
  unfold State.mirrorDone; split
  · exact mirror _ _ _
  · exact refl s

/-! ## Selections (R95 to R102) -/

/-- A SELECT built replaces the slot's telegram and carries the slot's new current tag. -/
theorem sendSelect (s : State) (g : SlotId) : Keeps s (s.sendSelect g) := by
  unfold State.sendSelect; split
  · refine after (modifyEntry _ _ _) ⟨fun h => ?_, id, id, id⟩
    obtain ⟨h1, h2⟩ := h
    refine ⟨?_, fun x hx => ?_⟩
    · refine nodup_push (nodup_drop h1 _) fun x hx => ?_
      simpa using (List.mem_filter.1 hx).2
    · rcases List.mem_append.1 hx with hx | hx
      · have hne : x.slot ≠ g := by simpa using (List.mem_filter.1 hx).2
        rw [State.tagState_setTag_ne _ _ hne]
        exact h2 x (List.mem_filter.1 hx).1
      · obtain rfl := List.mem_singleton.1 hx
        intro _
        simp [CellTelegram.isSelectFor, selectContent]
  · exact refl s

/-- A cancellation leaves the slot without a current tag and with at most its CANCEL. -/
theorem cancelSlot (s : State) (g : SlotId) : Keeps s (s.cancelSlot g) := by
  unfold State.cancelSlot
  simp only
  split
  · exact refl s
  · next hc =>
    split
    · refine ⟨fun h => ⟨nodup_drop h.1 _, fun x hx => ?_⟩, id, id, id⟩
      have hne : x.slot ≠ g := by simpa using (List.mem_filter.1 hx).2
      rw [State.tagState_setTag_ne _ _ hne]
      exact h.2 x (List.mem_filter.1 hx).1
    · next hw =>
      refine ⟨fun h => ?_, id, id, id⟩
      have hno : ∀ x ∈ s.ports.cellOwn, x.slot ≠ g := by
        intro x hx he
        have := h.2 x hx (by rw [he]; exact hc)
        rw [he] at this
        exact hw (List.any_eq_true.2 ⟨x, hx, this⟩)
      refine ⟨nodup_push h.1 hno, fun x hx => ?_⟩
      rcases List.mem_append.1 hx with hx | hx
      · rw [State.tagState_setTag_ne _ _ (hno x hx)]
        exact h.2 x hx
      · obtain rfl := List.mem_singleton.1 hx
        intro h0
        exact absurd (by simp) h0

/-- A re-selection drops the slot's telegram and builds a SELECT (R101). -/
theorem reselect (s : State) (g : SlotId) : Keeps s (s.reselect g) := by
  unfold State.reselect
  exact after (modifyEntry _ _ _) (after (sendSelect _ _) (after (setTag _ _ _ rfl) (dropCell _ _)))

/-! ## Release, head start and withdrawal (R12 to R22) -/

/-- A RELEASE emitted carries the tag of its record. -/
theorem emitRelease {s t : State} (r : BodyRecord) (cause : ReleaseCause) (k : Keeps s t)
    (hr : s.bankTagsKept → r.bankTag = t.banks.active ∨ t.banks.other = .draining) :
    Keeps s (t.emitRelease r cause) := by
  unfold State.emitRelease
  refine after (mirror _ _ _) (after (setStation _ _ _ (fun y hy => ⟨y, hy, rfl, fun _ => rfl⟩) id) ⟨k.cells, fun h x hx => ?_, k.order,
    k.fresh⟩)
  rcases List.mem_append.1 hx with hx | hx
  · exact k.banks h x (List.mem_append_left _ hx)
  · simp only [State.releasing, State.pushUplink_ports, List.filterMap_append, List.mem_append] at hx
    rcases hx with hx | hx
    · exact k.banks h x (List.mem_append_right _ hx)
    · have : x = releasedRecord r cause t.lineTime := by simpa [UplinkTelegram.releaseRecord?] using hx
      subst this
      exact hr h

/-- A record of a station's queue is in use. -/
theorem mem_recordsInUse {s : State} {st : StationId} {r : BodyRecord} (h : r ∈ (s.station st).queue) :
    r ∈ s.recordsInUse :=
  List.mem_append_left _ (List.mem_flatMap.2 ⟨st, by fin_cases st <;> decide, h⟩)

theorem releaseHead (s : State) (st : StationId) (cause : ReleaseCause) : Keeps s (s.releaseHead st cause) := by
  unfold State.releaseHead; split
  · exact refl s
  · next r hr =>
    obtain ⟨_, rest, hq⟩ := Station.head?_eq_some.1 hr
    refine emitRelease _ _ (after (disown _ _) (setStation _ _ _ (fun y hy => ⟨y, List.mem_of_mem_tail hy, rfl, fun _ => rfl⟩)
        fun h => List.Pairwise.sublist (List.tail_sublist _) h)) fun h => ?_
    exact h r (mem_recordsInUse (st := st) (by rw [hq]; exact List.mem_cons_self ..))

/-- A QUEUED record withdrawn carries its tag into its RELEASE. -/
theorem withdrawQueued (s : State) (st : StationId) (r : BodyRecord) (h : r ∈ (s.station st).queue) :
    Keeps s (s.withdrawQueued st r) := by
  unfold State.withdrawQueued
  exact emitRelease _ _ (setStation _ _ _ (fun y hy => ⟨y, (List.mem_filter.1 hy).1, rfl, fun _ => rfl⟩)
    fun k => List.Pairwise.sublist List.filter_sublist k) fun k => k r (mem_recordsInUse h)

theorem startSlot (s : State) (g : SlotId) : Keeps s (s.startSlot g) := by
  unfold State.startSlot; split
  · exact refl s
  · simp only
    split
    · exact after (sendSelect _ _) (after (addEntry _ _ _) (afterResolution _ _ _))
    · split
      · exact after (mirrorFault _ _ _) (after (addEntry _ _ _) (afterResolution _ _ _))
      · exact after (sendSelect _ _) (after (mirrorFault _ _ _) (after (setFlag _ _) (after (addEntry _ _ _) (afterResolution _ _ _))))
      · exact after (mirrorFault _ _ _) (after (setFlag _ _) (after (addEntry _ _ _) (afterResolution _ _ _)))
      · exact after (mirrorFault _ _ _) (after (setFlag _ _) (after (addEntry _ _ _) (afterResolution _ _ _)))

theorem settleHead (s : State) (st : StationId) : Keeps s (s.settleHead st) := by
  unfold State.settleHead; split
  · exact refl s
  · split
    · exact releaseHead _ _ _
    · exact setStationState _ _ _

theorem holdBody (s : State) (st : StationId) : Keeps s (s.holdBody st) := by
  unfold State.holdBody
  exact after (setStationState _ _ _) (after (setFlag _ _) (modifyHead _ _ _ fun _ => ⟨rfl, rfl, rfl⟩))

theorem latchReady (s : State) (st : StationId) : Keeps s (s.latchReady st) :=
  setStation s st _ (fun y hy => ⟨y, hy, rfl, fun _ => rfl⟩) id

theorem runHead (s : State) (st : StationId) : Keeps s (s.runHead st) := by
  unfold State.runHead; split
  · exact refl s
  · split
    · split
      · exact releaseHead _ _ _
      · exact holdBody _ _
    · exact after (settleHead _ _) (after (foldl startSlot _ _) (latchReady _ _))

theorem activateFront (s : State) (st : StationId) : Keeps s (s.activateFront st) := by
  unfold State.activateFront
  simp only
  split
  · exact refl s
  · next r rest h =>
    refine setStation _ _ _ (fun y hy => ?_) fun k => ?_
    · rcases List.mem_cons.1 hy with rfl | hy
      · exact ⟨r, by simp [h], rfl, fun h => nomatch h⟩
      · exact ⟨y, by simp [h, hy], rfl, fun _ => rfl⟩
    · unfold Machine.reworkFirst at k ⊢
      rw [h] at k
      exact List.pairwise_cons.2 ⟨fun y _ _ he => (nomatch he), (List.pairwise_cons.1 k).2⟩

theorem startHeads (st : StationId) (fuel : Nat) (s : State) : Keeps s (State.startHeads st fuel s) := by
  induction fuel generalizing s with
  | zero => exact refl s
  | succ n ih =>
    unfold State.startHeads; split
    · exact after (ih _) (after (runHead _ _) (activateFront _ _))
    · exact refl s

theorem testStation (s : State) (st : StationId) : Keeps s (s.testStation st) := startHeads _ _ _

theorem testEvery (s : State) : Keeps s s.testEvery := by
  unfold State.testEvery
  exact after (foldl testStation _ _) (setFree _ _)

theorem testAfterHold {s before released tested : State} (h : Keeps s tested) :
    Keeps s (Machine.testAfterHold before released tested) := by
  unfold Machine.testAfterHold; split
  · exact after (testEvery _) h
  · exact h

theorem testRelease (s : State) (st : StationId) : Keeps s (s.testRelease st) := by
  unfold State.testRelease; split
  · split
    · exact after (testStation _ _) (releaseHead _ _ _)
    · exact refl s
  · exact refl s

/-- A Station Queue keeps REWORK records ahead of NORMAL QUEUED ones when a record joins it (R7). -/
theorem reworkFirst_joinQueue {queue : List BodyRecord} (h : Machine.reworkFirst queue) (r : BodyRecord) :
    Machine.reworkFirst (joinQueue queue r) := by
  unfold joinQueue
  split
  · next hr => exact List.pairwise_append.2 ⟨h, List.pairwise_singleton _ _, fun x _ y hy _ _ => by simp_all⟩
  · next hr =>
    rw [reworkFirst] at h ⊢
    have hd : ∀ p : BodyRecord → Bool, queue.takeWhile p ++ queue.drop (queue.takeWhile p).length = queue := by
      intro p
      conv_lhs => arg 2; arg 2; rw [← List.takeWhile_append_dropWhile (p := p) (l := queue)]
      rw [List.drop_left, List.takeWhile_append_dropWhile]
    have hp := h
    rw [← hd fun x : BodyRecord => !(x.origin == .normal && x.state == .queued)] at hp
    obtain ⟨p1, p2, p3⟩ := List.pairwise_append.1 hp
    refine List.pairwise_append.2 ⟨p1, List.pairwise_cons.2 ⟨fun y _ he => (by rw [hr] at he; cases he), p2⟩, fun x hx y hy hxo hxs => ?_⟩
    have := List.mem_takeWhile_imp hx
    simp [hxo, hxs] at this

/-- An accepted announcement's record carries the tag it was given, and nothing of a head start or release. -/
theorem accept (s : State) (st : StationId) (r : BodyRecord) (c : Bool) (hr : r.bankTag = s.banks.active)
    (hf : r.entries = [] ∧ r.bodyHeld = false ∧ r.startedAt = none ∧ r.releasedAt = none ∧ r.outcome = none) :
    Keeps s (s.accept st r c) := by
  have hj : ∀ y ∈ joinQueue (s.station st).queue r, y = r ∨ y ∈ (s.station st).queue := by
    intro y hy
    unfold joinQueue at hy
    split at hy
    · rcases List.mem_append.1 hy with hy | hy
      · exact .inr hy
      · exact .inl (List.mem_singleton.1 hy)
    · rcases List.mem_append.1 hy with hy | hy
      · exact .inr ((List.takeWhile_sublist _).subset hy)
      · rcases List.mem_cons.1 hy with rfl | hy
        · exact .inl rfl
        · exact .inr (List.mem_of_mem_drop hy)
  have hs : Keeps s (s.setStation st { s.station st with queue := joinQueue (s.station st).queue r }) := by
    refine ⟨id, fun h x hx => ?_, fun h st' => ?_, fun h st' x hx hq => ?_⟩
    · rcases List.mem_append.1 hx with hx | hx
      · obtain ⟨st', _, hx⟩ := List.mem_flatMap.1 hx
        by_cases e : st' = st
        · subst e
          rw [State.station_setStation_self] at hx
          rcases hj x hx with rfl | hx
          · exact .inl hr
          · exact h x (mem_recordsInUse hx)
        · rw [State.station_setStation_ne _ _ e] at hx
          exact h x (mem_recordsInUse hx)
      · exact h x (List.mem_append_right _ hx)
    · by_cases e : st' = st
      · subst e
        rw [State.station_setStation_self]
        exact reworkFirst_joinQueue (h st') r
      · rw [State.station_setStation_ne _ _ e]
        exact h st'
    · by_cases e : st' = st
      · subst e
        rw [State.station_setStation_self] at hx
        rcases hj x hx with rfl | hx
        · exact hf
        · exact h st' x hx hq
      · rw [State.station_setStation_ne _ _ e] at hx
        exact h st' x hx hq
  unfold State.accept
  simp only
  split
  · exact after (testStation _ _) (after (setFlagIf _ _ _) hs)
  · exact after (setFlagIf _ _ _) hs

theorem withdrawEntry (s : State) (g : SlotId) : Keeps s (s.withdrawEntry g) := by
  unfold State.withdrawEntry; split
  · exact refl s
  · split
    · exact modifyEntry _ _ _
    · exact after (modifyEntry _ _ _) (cancelSlot _ _)
    · exact after (modifyEntry _ _ _) (cancelSlot _ _)
    · exact after (setFlagIf _ _ _) (modifyEntry _ _ _)
    · exact modifyEntry _ _ _
    · exact modifyEntry _ _ _

theorem abortHead (s : State) (st : StationId) : Keeps s (s.abortHead st) := by
  unfold State.abortHead
  exact after (releaseHead _ _ _) (after (modifyHead _ _ _ fun _ => ⟨rfl, rfl, rfl⟩) (foldl withdrawEntry _ _))

theorem withdrawHead (s : State) (st : StationId) : Keeps s (s.withdrawHead st) :=
  testAfterHold (after (testStation _ _) (abortHead _ _))

/-! ## Faults and CLEAR STATION (R125 to R141) -/

theorem enterHeld (s : State) (st : StationId) : Keeps s (s.enterHeld st) := by
  unfold State.enterHeld; split
  · exact setStationState _ _ _
  · exact refl s

theorem takeFault (s : State) (g : SlotId) (k : FaultKind) : Keeps s (s.takeFault g k) := by
  unfold State.takeFault
  simp only
  split
  · exact refl s
  · exact after (mirrorFault _ _ _) (after (enterHeld _ _) (after (setFlag _ _) (modifyEntry _ _ _)))
  · exact after (mirrorFault _ _ _) (after (modifyEntry _ _ _) (cancelSlot _ _))
  · exact after (mirrorFault _ _ _) (after (setFlag _ _) (modifyEntry _ _ _))

theorem acceptDone (s : State) (g : SlotId) (e : SlotEntry) (n : Nat) (reject dressed : Bool) :
    Keeps s (s.acceptDone g e n reject dressed) := by
  unfold State.acceptDone
  simp only
  refine after (testRelease _ _) (after (setGun _ _ _) (after (foldl (fun s k => mirrorFault s g k) _ _)
    (after (mirrorDone _ _) ?_)))
  split
  · exact after (enterHeld _ _) (after (setFlag _ _) (after (modifyEntry _ _ _) (setTag _ _ _ rfl)))
  · exact after (setFlag _ _) (after (modifyEntry _ _ _) (setTag _ _ _ rfl))
  · exact after (modifyEntry _ _ _) (setTag _ _ _ rfl)
  · exact after (modifyEntry _ _ _) (setTag _ _ _ rfl)
  · exact after (modifyEntry _ _ _) (setTag _ _ _ rfl)

theorem cancelIfSelected (s : State) (g : SlotId) (e : SlotEntry) : Keeps s (s.cancelIfSelected g e) := by
  unfold State.cancelIfSelected; split
  · exact cancelSlot _ _
  · exact refl s

theorem retrySelection (s : State) (g : SlotId) (e : SlotEntry) : Keeps s (s.retrySelection g e) := by
  unfold State.retrySelection
  simp only
  split
  · exact refl s
  · split
    · exact after (reselect _ _) (after (setFlag _ _) (after (modifyEntry _ _ _) (after (modifyEntry _ _ _)
        (afterResolution _ _ _))))
    · split
      · exact after (reselect _ _) (after (mirrorFault _ _ _) (after (setFlag _ _) (after (modifyEntry _ _ _) (after (modifyEntry _ _ _)
          (afterResolution _ _ _)))))
      · exact after (mirrorFault _ _ _) (after (modifyEntry _ _ _) (after (cancelIfSelected _ _ _)
          (after (modifyEntry _ _ _) (afterResolution _ _ _))))
      · exact after (mirrorFault _ _ _) (after (setFlag _ _) (after (modifyEntry _ _ _) (after (cancelIfSelected _ _ _)
          (after (modifyEntry _ _ _) (afterResolution _ _ _)))))
      · exact after (mirrorFault _ _ _) (after (setFlag _ _) (after (modifyEntry _ _ _) (after (cancelIfSelected _ _ _)
          (after (modifyEntry _ _ _) (afterResolution _ _ _)))))

theorem retryEntry (s : State) (g : SlotId) : Keeps s (s.retryEntry g) := by
  unfold State.retryEntry; split
  · exact refl s
  · split
    · exact refl s
    · split
      · exact retrySelection _ _ _
      · exact retrySelection _ _ _
      · exact after (setFlag _ _) (after (modifyEntry _ _ _) (setTag _ _ _ rfl))
      · exact modifyEntry _ _ _
      · exact modifyEntry _ _ _
      · exact modifyEntry _ _ _

theorem skipEntry (s : State) (g : SlotId) : Keeps s (s.skipEntry g) := by
  unfold State.skipEntry; split
  · exact refl s
  · split
    · exact refl s
    · split
      · exact modifyEntry _ _ _
      · exact modifyEntry _ _ _
      · exact modifyEntry _ _ _
      · exact after (modifyEntry _ _ _) (cancelSlot _ _)
      · exact after (modifyEntry _ _ _) (cancelSlot _ _)
      · exact modifyEntry _ _ _

/-- A head whose style is found again takes the ACTIVE bank's tag (R138). -/
theorem retag (s : State) (st : StationId) (row : Nat) :
    Keeps s (s.modifyHead st fun r =>
      { r with row := some row, bankTag := s.banks.active, bodyHeld := false, startedAt := some s.lineTime }) := by
  refine ⟨id, fun h x hx => ?_, fun h st' => ?_, queuedFresh_modifyHead s st _ fun _ => rfl⟩
  · rcases List.mem_append.1 hx with hx | hx
    · obtain ⟨st', _, hx⟩ := List.mem_flatMap.1 hx
      by_cases e : st' = st
      · subst e
        rw [State.modifyHead, State.station_setStation_self] at hx
        unfold Station.modifyHead at hx
        split at hx
        · next r rest hq =>
          split at hx
          · rcases List.mem_cons.1 hx with rfl | hx
            · exact .inl rfl
            · exact h x (mem_recordsInUse (st := st') (by rw [hq]; exact List.mem_cons_of_mem _ hx))
          · exact h x (mem_recordsInUse hx)
        · exact h x (mem_recordsInUse hx)
      · rw [State.modifyHead, State.station_setStation_ne _ _ e] at hx
        exact h x (mem_recordsInUse hx)
    · exact h x (List.mem_append_right _ hx)
  · by_cases e : st' = st
    · subst e
      rw [State.modifyHead, State.station_setStation_self]
      exact reworkFirst_modifyHead (fun _ => ⟨rfl, rfl⟩) (h st')
    · rw [State.modifyHead, State.station_setStation_ne _ _ e]
      exact h st'

theorem retryBody (s : State) (st : StationId) : Keeps s (s.retryBody st) := by
  unfold State.retryBody; split
  · exact refl s
  · split
    · exact refl s
    · split
      · refine after (runHead _ _) ?_
        split
        · exact retag _ _ _
        · exact after (drainTest _) (retag _ _ _)
      · split
        · exact after (releaseHead _ _ _) (modifyHead _ _ _ fun _ => ⟨rfl, rfl, rfl⟩)
        · exact holdBody _ _

theorem skipBody (s : State) (st : StationId) : Keeps s (s.skipBody st) := by
  unfold State.skipBody; split
  · exact refl s
  · split
    · exact after (releaseHead _ _ _) (modifyHead _ _ _ fun _ => ⟨rfl, rfl, rfl⟩)
    · exact refl s

theorem clearHead (s : State) (st : StationId) (o : ClearOption) : Keeps s (s.clearHead st o) := by
  cases o
  · exact after (retryBody _ _) (foldl retryEntry _ _)
  · exact after (skipBody _ _) (foldl skipEntry _ _)
  · exact abortHead _ _

theorem clearStation (s : State) (st : StationId) (o : ClearOption) : Keeps s (s.clearStation st o).1 :=
  testAfterHold (after (testStation _ _) (after (settleHead _ _) (clearHead _ _ _)))

/-! ## The slot handshake (R103 to R113) -/

theorem acceptLoaded (s : State) (g : SlotId) : Keeps s (s.acceptLoaded g) := by
  unfold State.acceptLoaded
  exact after (modifyEntry _ _ _) (setTag _ _ _ rfl)

theorem acceptRefused (s : State) (g : SlotId) (r : Option Nat) : Keeps s (s.acceptRefused g r) := by
  unfold State.acceptRefused
  exact after (testRelease _ _) (after (takeFault _ _ _) (after (modifyEntry _ _ _) (setTag _ _ _ rfl)))

theorem takeTimeout (s : State) (g : SlotId) (k : FaultKind) : Keeps s (s.takeTimeout g k) := by
  unfold State.takeTimeout; split
  · exact after (testRelease _ _) (takeFault _ _ _)
  · exact refl s

theorem readyExpires (s : State) (g : SlotId) : Keeps s (s.readyExpires g) := by
  unfold State.readyExpires; split
  · exact after (takeTimeout _ _ _) (setTag _ _ _ rfl)
  · exact refl s

theorem cycleExpires (s : State) (g : SlotId) : Keeps s (s.cycleExpires g) := by
  unfold State.cycleExpires; split
  · exact after (takeTimeout _ _ _) (setTag _ _ _ rfl)
  · exact refl s

end Keeps

end Sys2Proof.Machine
end

