-- ==== Sys2Proof/Laws/Room.lean ====
section
/-! SUPPORT. The Body Record pool (R1): how many records each operation leaves in use. Only an accepted announcement takes one. -/

namespace Sys2Proof.Machine

/-- The records in use after a station is written: its queue's records exchanged for the new queue's. -/
theorem State.length_recordsInUse_setStation (s : State) (st : StationId) (x : Station) :
    (s.setStation st x).recordsInUse.length + (s.station st).queue.length =
      s.recordsInUse.length + x.queue.length := by
  have key : (s.setStation st x).queued.length + (s.station st).queue.length = s.queued.length + x.queue.length := by
    have hn : ∀ st', st' ≠ st → ((s.setStation st x).station st').queue = (s.station st').queue := fun st' h => by
      rw [State.station_setStation_ne _ _ h]
    have hs : ((s.setStation st x).station st).queue = x.queue := by simp
    revert hn hs
    simp only [State.queued, allStations, List.flatMap_cons, List.flatMap_nil, List.length_append, List.length_nil]
    match st with
    | 0 => intro hn hs; rw [hs, hn 1 (by decide), hn 2 (by decide), hn 3 (by decide)]; omega
    | 1 => intro hn hs; rw [hs, hn 0 (by decide), hn 2 (by decide), hn 3 (by decide)]; omega
    | 2 => intro hn hs; rw [hs, hn 0 (by decide), hn 1 (by decide), hn 3 (by decide)]; omega
    | 3 => intro hn hs; rw [hs, hn 0 (by decide), hn 1 (by decide), hn 2 (by decide)]; omega
  have hr : (s.setStation st x).releasing = s.releasing := rfl
  simp only [State.recordsInUse, List.length_append, hr]
  omega

/-- The records in use after a RELEASE is placed: one more. -/
theorem State.length_recordsInUse_pushRelease (s : State) (v : Envelope) (r : BodyRecord) :
    (s.pushUplink (.release v r)).recordsInUse.length = s.recordsInUse.length + 1 := by
  have hq : (s.pushUplink (.release v r)).queued = s.queued := rfl
  simp [State.recordsInUse, hq, State.releasing, UplinkTelegram.releaseRecord?]
  omega

/-- An operation that leaves no more records in use than it found. -/
structure NoMoreRecords (s t : State) : Prop where
  le : t.recordsInUse.length ≤ s.recordsInUse.length

namespace NoMoreRecords

theorem refl (s : State) : NoMoreRecords s s := ⟨Nat.le_refl _⟩

/-- Two operations one after the other, the later one first. -/
theorem after {s t u : State} (k : NoMoreRecords t u) (h : NoMoreRecords s t) : NoMoreRecords s u := ⟨Nat.le_trans k.le h.le⟩

theorem foldl {α : Type} {f : State → α → State} (h : ∀ s a, NoMoreRecords s (f s a)) (l : List α) (s : State) :
    NoMoreRecords s (l.foldl f s) := by
  induction l generalizing s with
  | nil => exact refl s
  | cons a rest ih => exact after (ih _) (h s a)

/-- A change that keeps the stations and the Uplink own-telegram queue. -/
theorem of_eq {s t : State} (h : t.tracker.stations = s.tracker.stations) (hu : t.ports.uplinkOwn = s.ports.uplinkOwn) :
    NoMoreRecords s t := by
  have hq : t.queued = s.queued := by simp [State.queued, State.station, h]
  have hr : t.releasing = s.releasing := by simp [State.releasing, hu]
  exact ⟨by simp [State.recordsInUse, hq, hr]⟩

theorem setStation (s : State) (st : StationId) (x : Station) (h : x.queue.length ≤ (s.station st).queue.length) :
    NoMoreRecords s (s.setStation st x) := by
  have := s.length_recordsInUse_setStation st x
  exact ⟨by omega⟩

theorem setFlag (s : State) (f : EventFlag) : NoMoreRecords s (s.setFlag f) := of_eq rfl rfl

theorem setFlagIf (s : State) (c : Bool) (f : EventFlag) : NoMoreRecords s (s.setFlagIf c f) := by
  cases c
  · exact refl s
  · exact setFlag s f

theorem setStationState (s : State) (st : StationId) (x : StationState) : NoMoreRecords s (s.setStationState st x) :=
  setStation s st _ (Nat.le_refl _)

theorem modifyHead (s : State) (st : StationId) (f : BodyRecord → BodyRecord) : NoMoreRecords s (s.modifyHead st f) := by
  refine setStation s st _ ?_
  unfold Station.modifyHead
  split
  · next h => split <;> simp [h]
  · exact Nat.le_refl _

theorem modifyEntry (s : State) (g : SlotId) (f : SlotEntry → SlotEntry) : NoMoreRecords s (s.modifyEntry g f) :=
  modifyHead s _ _

theorem addEntry (s : State) (g : SlotId) (e : SlotEntry) : NoMoreRecords s (s.addEntry g e) := modifyHead s _ _

theorem setGun (s : State) (g : SlotId) (x : Gun) : NoMoreRecords s (s.setGun g x) := of_eq rfl rfl

theorem setTag (s : State) (g : SlotId) (x : TagState) : NoMoreRecords s (s.setTag g x) := of_eq rfl rfl

theorem dropCell (s : State) (g : SlotId) : NoMoreRecords s (s.dropCell g) := of_eq rfl rfl

theorem pushCell (s : State) (g : SlotId) (b : CellBody) : NoMoreRecords s (s.pushCell g b) := of_eq rfl rfl

theorem disown (s : State) (st : StationId) : NoMoreRecords s (s.disown st) := of_eq rfl rfl

theorem setFree (s : State) (n : Nat) : NoMoreRecords s (s.setFree n) := of_eq rfl rfl

theorem afterResolution (s : State) (g : SlotId) (x : Resolution) : NoMoreRecords s (s.afterResolution g x) := by
  unfold State.afterResolution
  exact after (setFlagIf _ _ _) (after (setFlagIf _ _ _) (of_eq rfl rfl))

theorem drainTest (s : State) : NoMoreRecords s s.drainTest := by
  unfold State.drainTest; split
  · exact of_eq rfl rfl
  · exact refl s

theorem countAt (s : State) (st : StationId) (f : StationCounters → StationCounters) :
    NoMoreRecords s (s.countAt st f) := setStation s st _ (Nat.le_refl _)

theorem offerCopy (st : StationId) (content : CopyContent) (s : State) (c : ChannelId) :
    NoMoreRecords s (Machine.offerCopy st content s c) := by
  unfold Machine.offerCopy
  simp only
  split
  · split
    · refine after (setFlagIf _ _ _) ?_
      exact ⟨by simp [State.recordsInUse, State.queued, State.station, State.releasing,
        UplinkTelegram.releaseRecord?]⟩
    · exact of_eq rfl rfl
  · exact refl s

/-! ## The Mirror Unit (R178, R179) -/

theorem mirror (s : State) (st : StationId) (content : CopyContent) : NoMoreRecords s (s.mirror st content) :=
  foldl (offerCopy st content) _ s

theorem mirrorFault (s : State) (g : SlotId) (k : FaultKind) : NoMoreRecords s (s.mirrorFault g k) := by
  unfold State.mirrorFault; split
  · exact mirror _ _ _
  · exact refl s

theorem mirrorDone (s : State) (g : SlotId) : NoMoreRecords s (s.mirrorDone g) := by
  unfold State.mirrorDone; split
  · exact mirror _ _ _
  · exact refl s

/-! ## Selections (R95 to R102) -/

theorem sendSelect (s : State) (g : SlotId) : NoMoreRecords s (s.sendSelect g) := by
  unfold State.sendSelect; split
  · exact after (modifyEntry _ _ _) (after (setTag _ _ _)
      (after (pushCell _ _ _) (dropCell _ _)))
  · exact refl s

theorem cancelSlot (s : State) (g : SlotId) : NoMoreRecords s (s.cancelSlot g) := by
  unfold State.cancelSlot
  simp only
  split
  · exact refl s
  · split
    · exact after (setTag _ _ _) (dropCell _ _)
    · exact after (setTag _ _ _) (pushCell _ _ _)

theorem reselect (s : State) (g : SlotId) : NoMoreRecords s (s.reselect g) := by
  unfold State.reselect
  exact after (modifyEntry _ _ _) (after (sendSelect _ _) (after (setTag _ _ _) (dropCell _ _)))

/-! ## Release, head start and withdrawal (R12 to R22) -/

/-- A RELEASE emitted takes one record into the Uplink own-telegram queue. -/
theorem length_emitRelease (s : State) (r : BodyRecord) (cause : ReleaseCause) :
    (s.emitRelease r cause).recordsInUse.length ≤ s.recordsInUse.length + 1 := by
  unfold State.emitRelease
  refine Nat.le_trans (mirror _ _ _).le (Nat.le_trans (setStation _ _ _ ?_).le ?_)
  · exact Nat.le_refl _
  · exact Nat.le_of_eq (s.length_recordsInUse_pushRelease _ _)

/-- A head released is one record less in its queue and one more RELEASING. -/
theorem releaseHead (s : State) (st : StationId) (cause : ReleaseCause) : NoMoreRecords s (s.releaseHead st cause) := by
  unfold State.releaseHead; split
  · exact refl s
  · next r hr =>
    obtain ⟨_, rest, hq⟩ := Station.head?_eq_some.1 hr
    refine ⟨Nat.le_trans (length_emitRelease _ _ _) ?_⟩
    have h1 := disown (s.setStation st { s.station st with queue := (s.station st).queue.tail, state := .idle }) st
    have h2 := s.length_recordsInUse_setStation st
      { s.station st with queue := (s.station st).queue.tail, state := .idle }
    have h1 := h1.le
    simp only [hq, List.tail_cons, List.length_cons] at h1 h2 ⊢
    omega

/-- A QUEUED record withdrawn is one record less in its queue, or more, and one more RELEASING. -/
theorem withdrawQueued (s : State) (st : StationId) (r : BodyRecord) (h : ∃ y ∈ (s.station st).queue, y.bodyId = r.bodyId) :
    NoMoreRecords s (s.withdrawQueued st r) := by
  unfold State.withdrawQueued
  refine ⟨Nat.le_trans (length_emitRelease _ _ _) ?_⟩
  have h2 := s.length_recordsInUse_setStation st
    { s.station st with queue := (s.station st).queue.filter fun y => y.bodyId != r.bodyId }
  have h3 : ((s.station st).queue.filter fun y => y.bodyId != r.bodyId).length < (s.station st).queue.length := by
    obtain ⟨y, hy, he⟩ := h
    exact List.length_filter_lt_length_iff_exists.2 ⟨y, hy, by simp [he]⟩
  simp only at h2 ⊢
  omega

theorem startSlot (s : State) (g : SlotId) : NoMoreRecords s (s.startSlot g) := by
  unfold State.startSlot; split
  · exact refl s
  · simp only
    split
    · exact after (sendSelect _ _) (after (addEntry _ _ _) (afterResolution _ _ _))
    · split
      · exact after (mirrorFault _ _ _) (after (addEntry _ _ _) (afterResolution _ _ _))
      · exact after (sendSelect _ _) (after (mirrorFault _ _ _) (after (setFlag _ _) (after (addEntry _ _ _) (afterResolution _ _ _))))
      · exact after (mirrorFault _ _ _) (after (setFlag _ _) (after (addEntry _ _ _) (afterResolution _ _ _)))
      · exact after (mirrorFault _ _ _) (after (setFlag _ _) (after (addEntry _ _ _) (afterResolution _ _ _)))

theorem settleHead (s : State) (st : StationId) : NoMoreRecords s (s.settleHead st) := by
  unfold State.settleHead; split
  · exact refl s
  · split
    · exact releaseHead _ _ _
    · exact setStationState _ _ _

theorem holdBody (s : State) (st : StationId) : NoMoreRecords s (s.holdBody st) := by
  unfold State.holdBody
  exact after (setStationState _ _ _) (after (setFlag _ _) (modifyHead _ _ _))

theorem latchReady (s : State) (st : StationId) : NoMoreRecords s (s.latchReady st) :=
  setStation s st _ (Nat.le_refl _)

theorem runHead (s : State) (st : StationId) : NoMoreRecords s (s.runHead st) := by
  unfold State.runHead; split
  · exact refl s
  · split
    · split
      · exact releaseHead _ _ _
      · exact holdBody _ _
    · exact after (settleHead _ _) (after (foldl startSlot _ _) (latchReady _ _))

theorem activateFront (s : State) (st : StationId) : NoMoreRecords s (s.activateFront st) := by
  unfold State.activateFront
  simp only
  split
  · exact refl s
  · next h => exact setStation _ _ _ (by simp [h])

theorem startHeads (st : StationId) (fuel : Nat) (s : State) : NoMoreRecords s (State.startHeads st fuel s) := by
  induction fuel generalizing s with
  | zero => exact refl s
  | succ n ih =>
    unfold State.startHeads; split
    · exact after (ih _) (after (runHead _ _) (activateFront _ _))
    · exact refl s

theorem testStation (s : State) (st : StationId) : NoMoreRecords s (s.testStation st) := startHeads _ _ _

theorem testEvery (s : State) : NoMoreRecords s s.testEvery := by
  unfold State.testEvery
  exact after (foldl testStation _ _) (setFree _ _)

theorem testAfterHold {s before released tested : State} (h : NoMoreRecords s tested) :
    NoMoreRecords s (Machine.testAfterHold before released tested) := by
  unfold Machine.testAfterHold; split
  · exact after (testEvery _) h
  · exact h

theorem testRelease (s : State) (st : StationId) : NoMoreRecords s (s.testRelease st) := by
  unfold State.testRelease; split
  · split
    · exact after (testStation _ _) (releaseHead _ _ _)
    · exact refl s
  · exact refl s

/-- An accepted announcement takes one record. -/
theorem length_accept (s : State) (st : StationId) (r : BodyRecord) (c : Bool) :
    (s.accept st r c).recordsInUse.length ≤ s.recordsInUse.length + 1 := by
  have hj : (joinQueue (s.station st).queue r).length = (s.station st).queue.length + 1 := by
    unfold joinQueue
    split
    · simp
    · have := (List.takeWhile_sublist (fun x : BodyRecord => !(x.origin == .normal && x.state == .queued))
        (l := (s.station st).queue)).length_le
      simp only [List.length_append, List.length_cons, List.length_drop]
      omega
  have h2 := s.length_recordsInUse_setStation st
    { s.station st with queue := joinQueue (s.station st).queue r }
  rw [hj] at h2
  unfold State.accept
  simp only
  split
  · refine Nat.le_trans (after (testStation _ _) (setFlagIf _ _ _)).le ?_
    dsimp only at h2 ⊢
    omega
  · refine Nat.le_trans (setFlagIf _ _ _).le ?_
    dsimp only at h2 ⊢
    omega

theorem withdrawEntry (s : State) (g : SlotId) : NoMoreRecords s (s.withdrawEntry g) := by
  unfold State.withdrawEntry; split
  · exact refl s
  · split
    · exact modifyEntry _ _ _
    · exact after (modifyEntry _ _ _) (cancelSlot _ _)
    · exact after (modifyEntry _ _ _) (cancelSlot _ _)
    · exact after (setFlagIf _ _ _) (modifyEntry _ _ _)
    · exact modifyEntry _ _ _
    · exact modifyEntry _ _ _

theorem abortHead (s : State) (st : StationId) : NoMoreRecords s (s.abortHead st) := by
  unfold State.abortHead
  exact after (releaseHead _ _ _) (after (modifyHead _ _ _) (foldl withdrawEntry _ _))

theorem withdrawHead (s : State) (st : StationId) : NoMoreRecords s (s.withdrawHead st) :=
  testAfterHold (after (testStation _ _) (abortHead _ _))

/-! ## Faults and CLEAR STATION (R125 to R141) -/

theorem enterHeld (s : State) (st : StationId) : NoMoreRecords s (s.enterHeld st) := by
  unfold State.enterHeld; split
  · exact setStationState _ _ _
  · exact refl s

theorem takeFault (s : State) (g : SlotId) (k : FaultKind) : NoMoreRecords s (s.takeFault g k) := by
  unfold State.takeFault
  simp only
  split
  · exact refl s
  · exact after (mirrorFault _ _ _) (after (enterHeld _ _) (after (setFlag _ _) (modifyEntry _ _ _)))
  · exact after (mirrorFault _ _ _) (after (modifyEntry _ _ _) (cancelSlot _ _))
  · exact after (mirrorFault _ _ _) (after (setFlag _ _) (modifyEntry _ _ _))

theorem acceptDone (s : State) (g : SlotId) (e : SlotEntry) (n : Nat) (reject dressed : Bool) :
    NoMoreRecords s (s.acceptDone g e n reject dressed) := by
  unfold State.acceptDone
  simp only
  refine after (testRelease _ _) (after (setGun _ _ _) (after (foldl (fun s k => mirrorFault s g k) _ _)
    (after (mirrorDone _ _) ?_)))
  split
  · exact after (enterHeld _ _) (after (setFlag _ _) (after (modifyEntry _ _ _) (setTag _ _ _)))
  · exact after (setFlag _ _) (after (modifyEntry _ _ _) (setTag _ _ _))
  · exact after (modifyEntry _ _ _) (setTag _ _ _)
  · exact after (modifyEntry _ _ _) (setTag _ _ _)
  · exact after (modifyEntry _ _ _) (setTag _ _ _)

theorem cancelIfSelected (s : State) (g : SlotId) (e : SlotEntry) : NoMoreRecords s (s.cancelIfSelected g e) := by
  unfold State.cancelIfSelected; split
  · exact cancelSlot _ _
  · exact refl s

theorem retrySelection (s : State) (g : SlotId) (e : SlotEntry) : NoMoreRecords s (s.retrySelection g e) := by
  unfold State.retrySelection
  simp only
  split
  · exact refl s
  · split
    · exact after (reselect _ _) (after (setFlag _ _) (after (modifyEntry _ _ _) (after (modifyEntry _ _ _)
        (afterResolution _ _ _))))
    · split
      · exact after (reselect _ _) (after (mirrorFault _ _ _) (after (setFlag _ _) (after (modifyEntry _ _ _) (after (modifyEntry _ _ _)
          (afterResolution _ _ _)))))
      · exact after (mirrorFault _ _ _) (after (modifyEntry _ _ _) (after (cancelIfSelected _ _ _)
          (after (modifyEntry _ _ _) (afterResolution _ _ _))))
      · exact after (mirrorFault _ _ _) (after (setFlag _ _) (after (modifyEntry _ _ _) (after (cancelIfSelected _ _ _)
          (after (modifyEntry _ _ _) (afterResolution _ _ _)))))
      · exact after (mirrorFault _ _ _) (after (setFlag _ _) (after (modifyEntry _ _ _) (after (cancelIfSelected _ _ _)
          (after (modifyEntry _ _ _) (afterResolution _ _ _)))))

theorem retryEntry (s : State) (g : SlotId) : NoMoreRecords s (s.retryEntry g) := by
  unfold State.retryEntry; split
  · exact refl s
  · split
    · exact refl s
    · split
      · exact retrySelection _ _ _
      · exact retrySelection _ _ _
      · exact after (setFlag _ _) (after (modifyEntry _ _ _) (setTag _ _ _))
      · exact modifyEntry _ _ _
      · exact modifyEntry _ _ _
      · exact modifyEntry _ _ _

theorem skipEntry (s : State) (g : SlotId) : NoMoreRecords s (s.skipEntry g) := by
  unfold State.skipEntry; split
  · exact refl s
  · split
    · exact refl s
    · split
      · exact modifyEntry _ _ _
      · exact modifyEntry _ _ _
      · exact modifyEntry _ _ _
      · exact after (modifyEntry _ _ _) (cancelSlot _ _)
      · exact after (modifyEntry _ _ _) (cancelSlot _ _)
      · exact modifyEntry _ _ _

theorem retryBody (s : State) (st : StationId) : NoMoreRecords s (s.retryBody st) := by
  unfold State.retryBody; split
  · exact refl s
  · split
    · exact refl s
    · split
      · refine after (runHead _ _) ?_
        split
        · exact modifyHead _ _ _
        · exact after (drainTest _) (modifyHead _ _ _)
      · split
        · exact after (releaseHead _ _ _) (modifyHead _ _ _)
        · exact holdBody _ _

theorem skipBody (s : State) (st : StationId) : NoMoreRecords s (s.skipBody st) := by
  unfold State.skipBody; split
  · exact refl s
  · split
    · exact after (releaseHead _ _ _) (modifyHead _ _ _)
    · exact refl s

theorem clearHead (s : State) (st : StationId) (o : ClearOption) : NoMoreRecords s (s.clearHead st o) := by
  cases o
  · exact after (retryBody _ _) (foldl retryEntry _ _)
  · exact after (skipBody _ _) (foldl skipEntry _ _)
  · exact abortHead _ _

theorem clearStation (s : State) (st : StationId) (o : ClearOption) : NoMoreRecords s (s.clearStation st o).1 :=
  testAfterHold (after (testStation _ _) (after (settleHead _ _) (clearHead _ _ _)))

/-! ## The slot handshake (R103 to R113) -/

theorem acceptLoaded (s : State) (g : SlotId) : NoMoreRecords s (s.acceptLoaded g) := by
  unfold State.acceptLoaded
  exact after (modifyEntry _ _ _) (setTag _ _ _)

theorem acceptRefused (s : State) (g : SlotId) (r : Option Nat) : NoMoreRecords s (s.acceptRefused g r) := by
  unfold State.acceptRefused
  exact after (testRelease _ _) (after (takeFault _ _ _) (after (modifyEntry _ _ _) (setTag _ _ _)))

theorem takeTimeout (s : State) (g : SlotId) (k : FaultKind) : NoMoreRecords s (s.takeTimeout g k) := by
  unfold State.takeTimeout; split
  · exact after (testRelease _ _) (takeFault _ _ _)
  · exact refl s

theorem readyExpires (s : State) (g : SlotId) : NoMoreRecords s (s.readyExpires g) := by
  unfold State.readyExpires; split
  · exact after (takeTimeout _ _ _) (setTag _ _ _)
  · exact refl s

theorem cycleExpires (s : State) (g : SlotId) : NoMoreRecords s (s.cycleExpires g) := by
  unfold State.cycleExpires; split
  · exact after (takeTimeout _ _ _) (setTag _ _ _)
  · exact refl s

end NoMoreRecords

end Sys2Proof.Machine
end

