-- ==== Sys2Proof/Laws/Step.lean ====
section
/-! SUPPORT. One form for every command: its effect on the state as a function, with the NOTICE at the end of the event, and one
step as that form. -/

namespace Sys2Proof.Machine

/-- Whether a command is a request, executed from the Request Queue (R157). -/
def isRequest : Instr → Bool
  | .undefinedRequest _ | .readStatus | .readBody _ _ | .readTable _ _ _ _ | .readGun _ _ | .readCounters _
  | .readRefusals | .writeTable _ _ _ _ _ | .writeBlock _ _ _ _ _ _ _ | .clearBank _ | .copyBank | .swap
  | .setStation _ _ _ _ | .setFaultModes _ _ | .setHoldScope _ | .clearStation _ _ | .withdrawBody _ _
  | .setGun _ _ _ _ | .setWear _ _ | .resetWear _ | .clearEvents _ | .setEventEnable _ | .setMirror _ _ _ _ _ _ _
  | .configure _ _ _ _ _ _ _ | .goLive | .storeImage | .loadImage | .restart => true
  | .powerUpReset | .powerUpLoadEnd _ | .linkUp _ | .linkDown _ | .frameReceive _ _ _ | .announce _ _ _ _ _ _ _
  | .withdraw _ _ _ | .request _ _ _ _ | .ready _ _ _ _ _ | .done _ _ _ _ _ | .readyTimeout _ | .cycleTimeout _
  | .selectTransmit | .cancelTransmit | .releaseTransmit | .replyTransmit | .noticeTransmit | .copyTransmit
  | .forwardTransmit _ | .copyBankComplete | .validationEnd | .storeImageEnd _ | .loadImageEnd _ => false

/-- What executing a request leaves, and its result and data; a command that is no request is answered as if refused, and
no law reads that answer. -/
def State.answer (s : State) : Instr → Answer
  | .undefinedRequest _ => s.result .badParameter
  | .readStatus => s.answerReadStatus
  | .readBody station position => s.answerReadBody station position
  | .readTable bank table first count => s.answerReadTable bank table first count
  | .readGun first count => s.answerReadGun first count
  | .readCounters clear => s.answerReadCounters clear
  | .readRefusals => s.answerReadRefusals
  | .writeTable bank table first count records => s.answerWriteTable bank table first count records
  | .writeBlock bank r1 r2 c1 c2 form cells => s.answerWriteBlock bank r1 r2 c1 c2 form cells
  | .clearBank bank => s.answerClearBank bank
  | .copyBank => s.answerCopyBank
  | .swap => s.answerSwap
  | .setStation station mode dry readyLimit => s.answerSetStation station mode dry readyLimit
  | .setFaultModes station pairs => s.answerSetFaultModes station pairs
  | .setHoldScope scope => s.answerSetHoldScope scope
  | .clearStation station option => s.answerClearStation station option
  | .withdrawBody bodyId station => s.answerWithdrawBody bodyId station
  | .setGun slot dressLimit hardLimit ceiling => s.answerSetGun slot dressLimit hardLimit ceiling
  | .setWear slot wear => s.answerSetWear slot wear
  | .resetWear slot => s.answerResetWear slot
  | .clearEvents mask => s.answerClearEvents mask
  | .setEventEnable enables => s.answerSetEventEnable enables
  | .setMirror channel option trigger stationMask destination countForm count => s.answerSetMirror channel option
    trigger stationMask destination countForm count
  | .configure protocolType own controller tracker stationCount slotCounts robotNodes => s.answerConfigure (shapeOf
    protocolType own controller tracker stationCount slotCounts robotNodes)
  | .goLive => s.answerGoLive
  | .storeImage => s.answerStoreImage
  | .loadImage => s.answerLoadImage
  | .restart => s.result .done
  | .powerUpReset | .powerUpLoadEnd _ | .linkUp _ | .linkDown _ | .frameReceive _ _ _ | .announce _ _ _ _ _ _ _
  | .withdraw _ _ _ | .request _ _ _ _ | .ready _ _ _ _ _ | .done _ _ _ _ _ | .readyTimeout _ | .cycleTimeout _
  | .selectTransmit | .cancelTransmit | .releaseTransmit | .replyTransmit | .noticeTransmit | .copyTransmit
  | .forwardTransmit _ | .copyBankComplete | .validationEnd | .storeImageEnd _ | .loadImageEnd _
    => s.result .badParameter

/-- The effect of a command before the NOTICE at the end of the event. -/
def effect (i : Instr) (s : State) : State :=
  match i with
  | .powerUpReset => s.powerUp
  | .powerUpLoadEnd flashAnswers => s.endPowerUpLoad flashAnswers
  | .linkUp port => s.setLink port true
  | .linkDown port => s.setLink port false
  | .frameReceive port checkGood frame => s.receiveFrame port checkGood frame
  | .announce source bodyId station origin style options variant => s.fromSource .announce .uplink source
    (·.takeAnnounce source bodyId station origin style options variant)
  | .withdraw source bodyId station => s.fromSource .withdraw .uplink source (·.takeWithdraw source bodyId station)
  | .request source number code params => s.fromSource .request .uplink source (·.takeRequest source number code
    params)
  | .ready source tag verdict reason program => s.fromSource .ready .cell source fun s => s.forRobot source fun s g =>
    s.takeReady g tag verdict reason program
  | .done source tag spots quality dressed => s.fromSource .done .cell source fun s => s.forRobot source fun s g =>
    s.takeDone g tag spots quality dressed
  | .readyTimeout slot => s.readyExpires slot
  | .cycleTimeout slot => s.cycleExpires slot
  | .selectTransmit => s.selectTransmit
  | .cancelTransmit => s.cancelTransmit
  | .releaseTransmit => s.releaseTransmit
  | .replyTransmit => s.replyTransmit
  | .noticeTransmit => s.noticeTransmit
  | .copyTransmit => s.copyTransmit
  | .forwardTransmit port => s.forwardTransmit port
  | .copyBankComplete => s.completeCopy
  | .validationEnd => s.endValidation
  | .storeImageEnd confirmed => s.endStore confirmed
  | .loadImageEnd flashAnswers => s.endLoad flashAnswers
  | .undefinedRequest _ | .readStatus | .readBody _ _ | .readTable _ _ _ _ | .readGun _ _ | .readCounters _
  | .readRefusals | .writeTable _ _ _ _ _ | .writeBlock _ _ _ _ _ _ _ | .clearBank _ | .copyBank | .swap
  | .setStation _ _ _ _ | .setFaultModes _ _ | .setHoldScope _ | .clearStation _ _ | .withdrawBody _ _
  | .setGun _ _ _ _ | .setWear _ _ | .resetWear _ | .clearEvents _ | .setEventEnable _ | .setMirror _ _ _ _ _ _ _
  | .configure _ _ _ _ _ _ _ | .goLive | .storeImage | .loadImage | .restart
    => s.runRequest i (·.answer i)

/-- Every command answers its effect with the NOTICE its flags call for (R171). -/
theorem exec_eq (i : Instr) (s : State) : exec i s = .next (settleNotice s (effect i s)) := by
  cases i <;> rfl

/-- The effect of a request command. -/
theorem effect_request {i : Instr} (h : isRequest i = true) (s : State) :
    effect i s = s.runRequest i (·.answer i) := by
  cases i <;> first | rfl | cases h

/-- What the octets of a request spell is a request (R157). -/
theorem isRequest_decodeRequest (code : Octet) (params : List Octet) :
    isRequest (decodeRequest code params) = true := by
  have some' : ∀ i : Instr, isRequest i = true → ∀ j, (some i : Option Instr) = some j → isRequest j = true := by
    rintro i h j ⟨⟩; exact h
  have bind' : ∀ {α : Type} (o : Option α) (f : α → Option Instr), (∀ a j, f a = some j → isRequest j = true) →
      ∀ j, (o >>= f) = some j → isRequest j = true := by
    intro α o f h j hj
    cases o with
    | none => cases hj
    | some a => exact h a j hj
  have key : ∀ j, requestOf code params = some j → isRequest j = true := by
    unfold requestOf
    split
    all_goals first
      | exact some' _ rfl
      | (intro j hj; cases hj)
      | (repeat' first
          | exact some' _ rfl
          | (refine bind' _ _ fun a => ?_)
          | (split))
  unfold decodeRequest
  cases h : requestOf code params with
  | none => rfl
  | some j => exact key j h

/-- What one step can do: a millisecond on an empty queue, or the effect of the front command with the queue's rest. -/
theorem step_cases {s t : State} (h : step s = .next t) :
    (s.pending = [] ∧ t = tick s) ∨ ∃ c rest, s.pending = c :: rest ∧
      t = settleNotice (s.withPending rest) (effect c (s.withPending rest)) := by
  unfold step at h
  split at h
  · next hp => cases h; exact .inl ⟨hp, rfl⟩
  · next c rest hp =>
    rw [exec_eq] at h
    cases h
    exact .inr ⟨c, rest, hp, rfl⟩

end Sys2Proof.Machine
end

