-- ==== Sys2Proof/WellFormed.lean ====
section
/-! DEFINITION. Which commands can arise on the wire: the checks here are bounds on the lengths of operands, since
every operand of a fixed width is of its type by construction. `exec` does not rely on them (log entry 31). -/

namespace Sys2Proof

/-- The largest Ethernet payload: the largest telegram body and the telegram header (R189). -/
def maxPayload : Nat := 1500

/-- The most parameter octets of a REQUEST: the largest telegram body less request number and code (R189, R192). -/
def maxParams : Nat := 1489

/-- The bounds that the largest telegram body (R189) and the layouts of R192 put on the operands of varying length. -/
def Instr.wellFormed : Instr → Bool
  | .frameReceive _ _ frame => decide (frame.payload.length ≤ maxPayload)
  | .request _ _ _ params => decide (params.length ≤ maxParams)
  | .writeTable _ _ _ _ records => decide (records.length + 6 ≤ maxParams)
  | .writeBlock _ _ _ _ _ _ cells => decide (cells.length + 6 ≤ maxParams)
  | .setFaultModes _ pairs => decide (pairs.length ≤ 255)
  | .configure _ _ _ _ stationCount slotCounts robotNodes =>
      decide (slotCounts.length = stationCount.toNat) &&
        decide (robotNodes.length = (slotCounts.map BitVec.toNat).sum)
  | .setMirror _ option trigger stationMask destination countForm count =>
      option == 1 || (trigger == 0 && stationMask == 0 && destination == 0 && countForm == 0 && count == 0)
  | .powerUpReset | .powerUpLoadEnd _ | .linkUp _ | .linkDown _ | .announce _ _ _ _ _ _ _ | .withdraw _ _ _
  | .ready _ _ _ _ _ | .done _ _ _ _ _ | .readyTimeout _ | .cycleTimeout _ | .selectTransmit | .cancelTransmit
  | .releaseTransmit | .replyTransmit | .noticeTransmit | .copyTransmit | .forwardTransmit _ | .copyBankComplete
  | .validationEnd | .storeImageEnd _ | .loadImageEnd _ | .undefinedRequest _ | .readStatus | .readBody _ _
  | .readTable _ _ _ _ | .readGun _ _ | .readCounters _ | .readRefusals | .clearBank _ | .copyBank | .swap
  | .setStation _ _ _ _ | .setHoldScope _ | .clearStation _ _ | .withdrawBody _ _ | .setGun _ _ _ _
  | .setWear _ _ | .resetWear _ | .clearEvents _ | .setEventEnable _ | .goLive | .storeImage | .loadImage
  | .restart => true

end Sys2Proof
end

