-- ==== Sys2Proof/Tests/Slice0.lean ====
section
/-! SUPPORT. Tests. The refused terms of WellFormed; the spec's worked cases, each one command on a small state; and for
every statement with hypotheses a state and operands that meet them. Expected values are those of the spec's text. -/

namespace Sys2Proof.Tests

open Sys2Proof Sys2Proof.Machine

set_option Elab.async false

/-! ## WellFormed: each check refuses an ill-formed term -/

theorem test_wf_frame_too_long :
    (Instr.frameReceive .uplink true ⟨0, 0, 0x8F5A, List.replicate 1501 0⟩).wellFormed = false := by decide +kernel

theorem test_wf_params_too_long : (Instr.request 7 1 0x10 (List.replicate 1490 0)).wellFormed = false := by
  decide +kernel

theorem test_wf_records_too_long : (Instr.writeTable 1 0 0 1 (List.replicate 1484 0)).wellFormed = false := by
  decide +kernel

theorem test_wf_cells_too_long : (Instr.writeBlock 1 0 0 0 0 1 (List.replicate 1484 0)).wellFormed = false := by
  decide +kernel

theorem test_wf_pairs_too_many : (Instr.setFaultModes 0 (List.replicate 256 (0, 0))).wellFormed = false := by
  decide +kernel

theorem test_wf_slot_counts_missing : (Instr.configure 0x8F5A 1 2 0 2 [1] [3]).wellFormed = false := by decide

theorem test_wf_robot_nodes_missing : (Instr.configure 0x8F5A 1 2 0 1 [2] [3]).wellFormed = false := by decide

theorem test_wf_disarm_with_fields : (Instr.setMirror 0 0 1 0 0 0 0).wellFormed = false := by decide

theorem test_wf_configure : (Instr.configure 0x8F5A 1 2 0 1 [2] [3, 4]).wellFormed = true := by decide

/-! ## The states of the tests -/

/-- The state a command answers. -/
def after (o : Host.Outcome State Fault Refusal) : State :=
  match o with
  | .next t => t
  | .fault _ | .refused _ => State.reset

/-- The tables of section 11.5: row 12 at columns 16 to 18, its two overlays, and the plans, schedules and curve. -/
def workedTables : Tables where
  styles    := [(0, ⟨3120, 12⟩)]
  matrix    := [(400, ⟨210, 1⟩), (401, ⟨220, 2⟩)]
  overlays  := [(0, ⟨5, none, 17, .substitute, 225⟩), (1, ⟨5, some 12, 18, .append, 240⟩)]
  plans     :=
    [(210, ⟨11, 0, 5000, [.group 3 12]⟩), (220, ⟨11, 0, 5000, [.group 3 12]⟩), (221, ⟨11, 0, 5000, [.group 3 12]⟩),
      (225, ⟨17, 1000, 7000, [.group 4 8, .group 3 6]⟩), (240, ⟨40, 0, 4000, [.group 4 5]⟩)]
  schedules := [(3, ⟨850, 220, 2⟩), (4, ⟨1040, 260, 0⟩)]
  curves    := [(2, [⟨500, 0⟩, ⟨3000, 120⟩])]

/-- Section 11.5: a LIVE part with controller 7, tracker 9 and stations of 2, 1 and 3 slots, robot node 1000 plus slot;
stations 0 and 1 OFFLINE, station 2 IDLE; guns 16 to 18 with the wears, ceiling and next tags of the section. -/
def line : State :=
  { State.reset with
    lineTime := 100000
    loader := Loader.start .idle
    filter :=
      ⟨0x8F5A, 100, some 7, some 9,
        Vector.ofFn fun g =>
          if g = 0 ∨ g = 1 ∨ g = 8 ∨ g = 16 ∨ g = 17 ∨ g = 18 then some (BitVec.ofNat 16 (1000 + g.val)) else none,
        some 7⟩
    tracker := ⟨(Vector.replicate 4 Station.reset).set 2 { Station.reset with state := .idle }, 3, #v[2, 1, 3, 0], []⟩
    banks := { State.reset.banks with tablesA := workedTables, validated := true }
    guns := Vector.ofFn fun g =>
      { Gun.reset with
        wearUnknown := false
        wear := if g = 16 then 800 else if g = 17 then 2200 else 0
        ceiling := if g = 18 then 1000 else 1800 }
    tags := Vector.ofFn fun g =>
      { TagState.reset with next := if g = 16 then 501 else if g = 17 then 77 else if g = 18 then 1200 else 1 }
    agent := ⟨[], .live, none⟩ }

/-- An entry of the head of station 2 in a state. -/
def entry (p : Position) (plan program spots : Nat) (state : SlotState) (tag : Tag) : SlotEntry :=
  ⟨p, plan, [], some program, [⟨3, spots, 220, 862⟩], some spots, none, false, false, false, state, 0, false, false, none,
    none, some tag, some 100002, some 100300⟩

/-- A body of station 2 with some entries. -/
def body (bodyId : BodyId) (state : RecordState) (entries : List SlotEntry) : BodyRecord :=
  ⟨bodyId, 2, 3120, some 12, 32, 0, .normal, .a, state, 100000, some 100000, none, entries, false, none⟩

/-- The head of section 11.5 once slot 2/1 is SELECTED and slot 2/0 LOADED. -/
def head : BodyRecord := body 8410 .active [entry 0 210 11 12 .loaded 501, entry 1 225 17 14 .selected 77]

/-- Station 2 in a state with a queue. -/
def line2 (state : StationState) (queue : List BodyRecord) : State :=
  { line with tracker := { line.tracker with stations := line.tracker.stations.set 2 { Station.reset with
    state := state, queue := queue } } }

/-- Slots 16 and 17 at work for that head at line time 102,900: tags 501 and 77 current, 76 cancelled at slot 17, timers
running to 105,300 and 103,003. -/
def atWork : State :=
  { line2 .dispatching [head] with
    lineTime := 102900
    tags := (line.tags.set 16 ⟨502, 501, 0, true, none, some 105300⟩).set 17 ⟨78, 77, 76, true, some 103003, none⟩ }

/-- A record of station 2 that waits in its queue, as R6 creates it. -/
def queued (bodyId : BodyId) : BodyRecord := { body bodyId .queued [] with startedAt := none }

/-- The line with station 1 HELD under the hold scope SECTION, and a queue at the IDLE station 2. -/
def sectionHeld (queue : List BodyRecord) : State :=
  let s := line2 .idle queue
  { s with
    holdScope := .wholeSection
    tracker := { s.tracker with stations := s.tracker.stations.set 1 { Station.reset with state := .held } } }

/-- A SELECT of slot 16 as the Cell own-telegram queue holds it. -/
def waitingSelect : CellTelegram :=
  ⟨16, ⟨1016, 100, 0x8F5A⟩, .select ⟨501, 8410, 11, false, false, false, [⟨3, 12, 220, 862⟩]⟩⟩

/-- The SELECT of slot 16 at the front of the Cell own-telegram queue. -/
def selecting : State :=
  { line2 .dispatching [body 8410 .active [entry 0 210 11 12 .selected 501]] with
    ports := { line.ports with cellOwn := [waitingSelect] }
    tags := line.tags.set 16 ⟨502, 501, 0, true, none, none⟩ }

/-- A state with one request waiting, from the controller. -/
def asking (s : State) (code : Octet) (params : List Octet) : State :=
  { s with agent := { s.agent with requests := [⟨7, 1, code, params, false⟩] } }

/-- A state that holds the long-operation slot. -/
def busyWith (s : State) (k : LongOpKind) : State := { s with agent := { s.agent with longOp := some ⟨k, 5, 0⟩ } }

/-! ## The spec's worked cases -/

/-- Section 11.5: the three resolutions of body 8410, as their SELECTs carry them. -/
theorem test_announce_worked_currents :
    let es := (((after (exec (.announce 9 8410 2 0 3120 32 0) line)).head? 2).map (·.entries)).getD []
    es.map (·.effectivePlan) = [210, 225, 240] ∧ es.map (·.overlays) = [[], [0], [1]] ∧
      es.map (fun e => e.groups.map (·.current)) = [[862], [1040, 919], [1000]] ∧
      es.map (·.plannedSpots) = [some 12, some 14, some 5] := by decide +kernel

/-- Section 11.5: Dress Due at gun 17, and the clamp at slot 2/2 sets Station Warning 2 (index 6). -/
theorem test_announce_worked_marks :
    let t := after (exec (.announce 9 8410 2 0 3120 32 0) line)
    (t.gun 17).dressDue = true ∧ t.events.flags = 64 ∧ t.ports.cellOwn.length = 3 ∧
      (t.station 2).state = .dispatching := by decide +kernel

/-- Section 11.5: the departure of a SELECT at 100,002 sets the ready timer to 103,002. -/
theorem test_selectTransmit_worked :
    let t := after (exec .selectTransmit
      { after (exec (.announce 9 8410 2 0 3120 32 0) line) with lineTime := 100002 })
    (t.tagState 16).readyTimer = some 103002 ∧ t.ports.cellOwn.length = 2 := by decide +kernel

/-- Section 11.5: READY 77 LOADED, program 17, at 100,350 sets the cycle timer to 107,350. -/
theorem test_ready_worked :
    let t := after (exec (.ready 1017 77 1 0 17) { atWork with lineTime := 100350 })
    (t.tagState 17).cycleTimer = some 107350 ∧ (t.tagState 17).readyTimer = none := by decide +kernel

/-- R109: a program loaded of 0 is a mismatch, and Ready Refused (bit 1) holds the station. -/
theorem test_ready_mismatch_holds :
    let t := after (exec (.ready 1017 77 1 0 0) atWork)
    (t.entry? 17).map (·.faults) = some 2 ∧ (t.station 2).state = .held := by decide +kernel

/-- Section 11.5: a DONE of 14 spots with a dress: the wear of 2,200 returns to 0, the dress count rises. -/
theorem test_done_dressed_worked :
    let t := after (exec (.done 1017 77 14 1 1) { atWork with lineTime := 104800 })
    (t.gun 17).wear = 0 ∧ (t.gun 17).dressCount = 1 ∧ (t.entry? 17).map (·.state) = some .finished := by decide +kernel

/-- Section 11.7: a Late DONE of 40 spots brings a wear of 1,400 to 1,440. -/
theorem test_done_late_worked :
    let s := { atWork with guns := atWork.guns.set 17 { Gun.reset with wear := 1400 } }
    let t := after (exec (.done 1017 76 40 1 0) s)
    (t.gun 17).wear = 1440 ∧ (t.station 2).counters.late = 1 := by decide +kernel

/-- Section 11.7: an expired cycle timer under PASS with every other entry ended releases the body FAULTED and leaves the
CANCEL of its tag. -/
theorem test_cycleTimeout_pass_worked :
    let x := { Station.reset with
      state := .dispatching, queue := [body 7701 .active [entry 0 210 11 12 .loaded 501]]
      modes := Station.reset.modes.set 2 .pass }
    let s := { atWork with
      lineTime := 105300
      tracker := { atWork.tracker with stations := atWork.tracker.stations.set 2 x } }
    let t := after (exec (.cycleTimeout 16) s)
    (t.station 2).state = .idle ∧ (t.station 2).counters.releasedFaulted = 1 ∧
      (t.tagState 16).cancelled = 501 ∧ t.ports.cellOwn.length = 1 := by decide +kernel

/-- Section 11.6: RETRY of an Unknown Style hold finds the style in the bank now ACTIVE, re-tags the record, and ends the
drain of the other bank (Bank Drained, index 10). -/
theorem test_clearStation_retry_worked :
    let r := { body 5500 .active [] with style := 4100, row := none, bodyHeld := true }
    let s := line2 .held [r]
    let s := { s with banks := { s.banks with
      active := .b, other := .draining, tablesB := { workedTables with styles := [(40, ⟨4100, 12⟩)] } } }
    let t := after (exec (.clearStation 2 0) (asking s 0x23 [2, 0]))
    t.banks.other = .shadow ∧ t.flag .bankDrained = true ∧ (t.station 2).state = .dispatching ∧
      (t.head? 2).map (·.bankTag) = some .b := by decide +kernel

/-- R82 with the curve of section 11.5 at wears 800 and 2,200: P = 14 and 81, currents 862 and 919. -/
theorem test_curve_worked :
    curveRaise [⟨500, 0⟩, ⟨3000, 120⟩] 800 = 14 ∧ steppedCurrent 850 14 1800 = 862 ∧
      curveRaise [⟨500, 0⟩, ⟨3000, 120⟩] 2200 = 81 ∧ steppedCurrent 850 81 1800 = 919 := by decide

/-- R95: the tag after 65,535 is 1. -/
theorem test_tag_wraps : nextTag 65535 = 1 ∧ nextTag 501 = 502 := by decide

/-- Section 2 of 00_scope.md: line time wraps from 4,294,967,295 to 0. -/
theorem test_lineTime_wraps : (after (step { line with lineTime := 4294967295 })).lineTime = 0 := by decide +kernel

/-- R189, R190: the payload of a CANCEL of tag 900 to node 1003, padded to 46 octets. -/
theorem test_cancel_payload :
    telegramPayload 0x11 ⟨1003, 100, 0x8F5A⟩ (Octets.be2 900) =
      [1, 0x11, 0, 2, 0x03, 0xEB, 0, 100, 0x03, 0x84] ++ List.replicate 36 0 := by decide

/-- R190: a SELECT of one group is 15 octets: tag, Body Id, program, marks, count and the group. -/
theorem test_select_octets :
    selectOctets ⟨77, 8410, 17, true, true, false, [⟨4, 8, 260, 1040⟩]⟩ =
      [0, 77, 0, 0, 0x20, 0xDA, 17, 3, 1, 4, 8, 1, 4, 4, 16] := by decide

/-- R192: WRITE TABLE of a schedule record reads as its octets say. -/
theorem test_decode_writeTable :
    decodeRequest 0x10 [1, 4, 0, 3, 0, 1, 1, 3, 0x52, 0, 220, 2] = .writeTable 1 4 3 1 [1, 3, 0x52, 0, 220, 2] ∧
      readRecords .schedules 6 [1, 3, 0x52, 0, 220, 2] = some [.ok (some (.schedule ⟨850, 220, 2⟩))] := by decide

/-- R192: a REQUEST whose parameters run short is UNDEFINED_REQUEST. -/
theorem test_decode_short : decodeRequest 0x30 [16, 0, 100, 0, 200, 1] = .undefinedRequest 0x30 := by decide

/-- The table gives no row any bits. -/
theorem test_no_word_spells_a_command : decodeTableWord 32 0 = none := by decide

/-! ## The statements' hypotheses are met: the step and the invariants -/

theorem witness_EmptyQueueIsOneMillisecond :
    line.pending = [] ∧ line.running .copyBank = false ∧ line.loader.activity = .idle := by decide +kernel

/-- A copy of which the last entry is left; the power-up load and a LOAD IMAGE at their start; a store of which the octets of the
header are written. The first entry of each table in the order of R42 is in its range, as the last curve is. -/
theorem witness_EmptyQueueIsOneMillisecond_atWork :
    let copying := { line with agent := { line.agent with longOp := some ⟨.copyBank, 5, 2831⟩ } }
    let reading := { busyWith line .loadImage with loader := Loader.start .load }
    let storing := { busyWith line .storeImage with
      loader := { Loader.start .store with stored := List.replicate 24 (0 : Octet), position := 23 } }
    copying.pending = [] ∧ copying.agent.longOp = some ⟨.copyBank, 5, 2831⟩ ∧ State.reset.pending = [] ∧
      State.reset.running .copyBank = false ∧ State.reset.loader.activity = .powerUpLoad ∧ reading.pending = [] ∧
      reading.running .copyBank = false ∧ reading.loader.activity = .load ∧ storing.pending = [] ∧
      storing.running .copyBank = false ∧ storing.loader.activity = .store ∧
      ([.styles, .matrix, .overlays, .plans, .schedules, .curves].all fun k : TableId => k.inRange k.firstIndex) = true ∧
      TableId.curves.inRange 16 = true := by decide +kernel

/-- A sound state at work: a head with an entry LOADED and one SELECTED, four requests of which the first is answered,
its REPLY waiting, a NOTICE queued, and a DONE to come. -/
def soundAtWork : State :=
  { atWork with
    pending := [.done 1017 77 14 1 1]
    agent := ⟨[⟨7, 1, 0x01, [], true⟩, ⟨7, 2, 0x01, [], false⟩, ⟨7, 3, 0x01, [], false⟩, ⟨7, 4, 0x01, [], false⟩],
      .live, none⟩
    ports := { atWork.ports with uplinkOwn := [.reply ⟨7, 100, 0x8F5A⟩ 1 0x01 .done 0 [], .notice] }
    events := { atWork.events with noticePending := true } }

theorem witness_EveryStepKeepsTablesCanonical :
    soundAtWork.tablesCanonical ∧ ∃ t, step soundAtWork = .next t := ⟨by decide +kernel, _, rfl⟩

theorem inRange_workedTables : workedTables.inRange := by
  rw [Tables.inRange_iff]
  simp [workedTables, Record.inRange, PlanStep.inRange, curveOrdered]

/-- The tables of section 11.5 in Bank A, Bank B empty. -/
theorem witness_EveryStepKeepsTablesCanonical_inRange :
    soundAtWork.tablesInRange ∧ ∃ t, step soundAtWork = .next t :=
  ⟨⟨inRange_workedTables, Tables.inRange_empty⟩, _, rfl⟩

theorem witness_EveryStepKeepsSettingsInRange :
    soundAtWork.settingsInRange ∧ ∃ t, step soundAtWork = .next t :=
  ⟨⟨by decide +kernel, by decide +kernel, fun _ h => by cases h⟩, _, rfl⟩

theorem witness_EveryStepKeepsStationsSound :
    soundAtWork.stationsSound ∧ ∃ t, step soundAtWork = .next t := by
  refine ⟨fun st => ⟨?_, ?_, ?_, ?_, ?_, ?_⟩, _, rfl⟩
  · revert st; decide +kernel
  · revert st; decide +kernel
  · revert st; decide +kernel
  · fin_cases st <;> intro r h <;> cases h; exact .inr rfl
  · revert st; decide +kernel
  · fin_cases st <;> refine ⟨fun h => (by cases h), fun ⟨r, h, k⟩ => ?_⟩ <;> cases h; cases k

/-- A REWORK record that waits ahead of a NORMAL one, and one to be announced. -/
theorem witness_EveryStepKeepsStationsSound_rework :
    let s := line2 .dispatching [head, { body 8411 .queued [] with origin := .rework }, body 8412 .queued []]
    let s := { s with pending := [.announce 9 8413 2 1 3120 32 0] }
    s.reworkFirst ∧ ∃ t, step s = .next t :=
  ⟨fun st => by unfold reworkFirst; revert st; decide +kernel, _, rfl⟩

/-- A QUEUED record behind a head. -/
theorem witness_EveryStepKeepsStationsSound_queued :
    let s := { line2 .dispatching [head, queued 8411] with pending := [.withdraw 9 8410 2] }
    s.queuedFresh ∧ (∃ r ∈ (s.station 2).queue, r.state = .queued) ∧ ∃ t, step s = .next t :=
  ⟨by unfold State.queuedFresh; decide +kernel, by decide +kernel, _, rfl⟩

theorem witness_EveryStepKeepsQueuesWithinRoom :
    soundAtWork.uplinkBounded ∧ soundAtWork.roomKept ∧ ∃ t, step soundAtWork = .next t :=
  ⟨by decide +kernel, by decide +kernel, _, rfl⟩

/-- The SELECT of a current tag; and 32 CANCELs, one for each slot. -/
theorem witness_EveryStepKeepsQueuesWithinRoom_cell :
    let full := { line with ports := { line.ports with
      cellOwn := allSlots.map fun g => ⟨g, ⟨1016, 100, 0x8F5A⟩, .cancel 501⟩ } }
    selecting.cellKept ∧ full.cellKept ∧ full.ports.cellOwn.length = 32 ∧
      (∃ t, step { selecting with pending := [.selectTransmit] } = .next t) ∧
      ∃ t, step { full with pending := [.cancelTransmit] } = .next t :=
  ⟨by decide +kernel, by decide +kernel, by decide +kernel, ⟨_, rfl⟩, _, rfl⟩

/-- A record of the bank that drains, and one of the ACTIVE bank. -/
theorem witness_EveryStepKeepsTagsValid_banks :
    let s := line2 .dispatching [head, { body 8411 .queued [] with bankTag := .b }]
    let d := { s with pending := [.withdraw 7 8411 2], banks := { s.banks with active := .b, other := .draining } }
    d.bankTagsKept ∧ soundAtWork.bankTagsKept ∧ d.recordsInUse.length = 2 ∧ ∃ t, step d = .next t :=
  ⟨by decide +kernel, by decide +kernel, by decide +kernel, _, rfl⟩

theorem witness_EveryStepKeepsTagsValid : soundAtWork.tagsValid ∧ ∃ t, step soundAtWork = .next t :=
  ⟨by decide +kernel, _, rfl⟩

theorem witness_LivePartKeepsItsConfiguration :
    (soundAtWork.loader.activity = .powerUpLoad → soundAtWork.agent.partState = .commissioning) ∧
      soundAtWork.agent.partState = .live ∧ soundAtWork.pending.head? ≠ some .powerUpReset ∧
      ∃ t, step soundAtWork = .next t := ⟨by decide +kernel, by decide +kernel, by decide +kernel, _, rfl⟩

/-! ## The traffic path -/

/-- A frame of the Ethernet minimum of another type. -/
def otherFrame : Frame := ⟨1, 2, 0x0800, List.replicate 46 0⟩

theorem witness_OrdinaryFrameIsForwardedOrCounted :
    46 ≤ otherFrame.payload.length ∧ otherFrame.etherType ≠ line.filter.protocolType ∧ line.ports.uplinkUp = true ∧
      line.ports.cellUp = true ∧ State.linkUp { line with ports := { line.ports with cellUp := false } } .cell = false ∧
      (List.replicate 45 (0 : Octet)).length < 46 := by decide +kernel

/-- A CANCEL of another sender for a robot node. -/
def foreignCancel (d : Node) : Frame :=
  ⟨1, 2, 0x8F5A, [1, 0x11, 0, 2] ++ Octets.be2 d ++ Octets.be2 55 ++ List.replicate 38 0⟩

/-- A READY for a robot, and a CANCEL for the nodes 55, 0 and 65535, which are no robots. -/
theorem witness_OrdinaryFrameIsForwardedOrCounted_telegram :
    46 ≤ (foreignCancel 55).payload.length ∧ (foreignCancel 55).etherType = line.filter.protocolType ∧
      (55 : Node) ≠ line.filter.ownNode ∧ (0 : Node) ≠ line.filter.ownNode ∧ (65535 : Node) ≠ line.filter.ownNode ∧
      (1016 : Node) ≠ line.filter.ownNode ∧ (∀ g : SlotId, line.robotNode? g ≠ some 55) ∧
      (∀ g : SlotId, line.robotNode? g ≠ some 0) ∧ (∀ g : SlotId, line.robotNode? g ≠ some 65535) ∧
      (0x12 : Octet) ≠ 0x10 ∧ (0x12 : Octet) ≠ 0x11 := by decide +kernel

/-- R146, R150: a CANCEL for node 65535 is forwarded, and dropped and counted at a full queue. -/
theorem test_telegram_for_another_node :
    let full := { line with ports := { line.ports with toCell := List.replicate 32 otherFrame } }
    let run := fun s => after (exec (.frameReceive .uplink true (foreignCancel 65535)) s)
    (run line).ports.toCell.length = 1 ∧ (run full).ports.toCell.length = 32 ∧
      (run full).events.forwardDropsToCell = 1 := by decide +kernel

/-- IDLE, HELD and DISPATCHING stations are guarded while LIVE, OFFLINE and MANUAL ones, and COMMISSIONING, are not. -/
theorem witness_GuardDropsForeignSelections :
    46 ≤ (foreignCancel 1016).payload.length ∧ (foreignCancel 1016).etherType = line.filter.protocolType ∧
      (1016 : Node) ≠ line.filter.ownNode ∧ line.slotOfNode? 1016 = some 16 ∧ line.slotOfNode? 1000 = some 0 ∧
      line.agent.partState = .live ∧ (line.station (stationOf 16)).state = .idle ∧
      (line.station (stationOf 0)).state = .offline ∧ ((line2 .held [head]).station (stationOf 16)).state = .held ∧
      ((line2 .dispatching [head]).station (stationOf 16)).state = .dispatching ∧
      ((line2 .manual []).station (stationOf 16)).state = .manual ∧ line.ports.uplinkUp = true ∧
      line.ports.cellUp = true ∧ line.ports.toCell.length < 32 ∧ line.ports.toUplink.length < 32 ∧
      { line with agent := ⟨[], .commissioning, none⟩ }.agent.partState = .commissioning := by decide +kernel

/-- A REQUEST of the 1489 parameter octets a frame has room for, and one of none. -/
theorem witness_AnnounceFrameIsTheAnnouncement :
    (List.replicate 1489 (0 : Octet)).length ≤ 1489 ∧ ([] : List Octet).length ≤ 1489 :=
  ⟨Nat.le_of_eq List.length_replicate, Nat.zero_le _⟩

/-- A frame for the own node whose telegram has a body length and a number of octets after the header. -/
def ownFrame (version kind length : Octet) (source : Node) (present : Nat) : Frame :=
  ⟨1, 2, 0x8F5A, [version, kind, 0, length] ++ Octets.be2 100 ++ Octets.be2 source ++ List.replicate present 0⟩

/-- A frame for each condition of R147: version 2; a body length one above and one below the octets present; the undefined kind
0x14; a body one octet short of its kind's minimum; the sources 0, 65535 and the own node; a kind that is only sent; ANNOUNCE
at the Cell port; READY at the Uplink port, and of a node that is no robot node; a REQUEST of the tracker node. -/
def wrongFrames : List (Port × Frame) :=
  [(.uplink, ownFrame 2 0x01 11 7 38), (.uplink, ownFrame 1 0x01 39 7 38), (.uplink, ownFrame 1 0x01 38 7 39),
    (.uplink, ownFrame 1 0x14 11 7 38), (.uplink, ownFrame 1 0x01 10 7 38), (.cell, ownFrame 1 0x13 4 1016 38),
    (.uplink, ownFrame 1 0x02 5 0 38), (.uplink, ownFrame 1 0x02 5 65535 38), (.uplink, ownFrame 1 0x02 5 100 38),
    (.cell, ownFrame 1 0x20 28 1016 38), (.cell, ownFrame 1 0x01 11 7 38), (.uplink, ownFrame 1 0x12 5 1016 38),
    (.cell, ownFrame 1 0x12 5 7 38), (.uplink, ownFrame 1 0x03 3 9 38)]

theorem witness_FrameErrorIsCountedAndDiscarded :
    wrongFrames.all (fun x => 46 ≤ x.2.payload.length && x.2.etherType == line.filter.protocolType && line.linkUp x.1) =
        true ∧
      line.filter.ownNode = 100 ∧ (List.replicate 38 (0 : Octet)).length < 39 ∧
      38 < (List.replicate 39 (0 : Octet)).length ∧ 46 < (ownFrame 1 0x01 38 7 39).payload.length ∧
      (∀ g : SlotId, line.robotNode? g ≠ some 7) ∧ line.filter.controllerNode = some 7 ∧ (9 : Node) ≠ 7 ∧
      line.ports.cellUp = true ∧ (0 : Octet) ≠ 1 ∧ (3 : Octet) ≠ 2 ∧ 1 < (2 : Octet).toNat := by
  decide +kernel

/-- Each of those frames, a READY with verdict 3, and a DONE with quality 0 or dressed 2 is one frame error (flag 17); a READY
of a robot node with verdict 1 is none. -/
theorem test_frame_errors :
    let error := fun t : State => t.events.frameErrors == 1 && t.events.flags == 1#29 <<< 17
    wrongFrames.all (fun x => error (after (exec (.frameReceive x.1 true x.2) line))) = true ∧
      error (after (exec (.ready 1016 501 3 0 11) line)) = true ∧ error (after (exec (.done 1016 501 12 0 0) line)) = true ∧
      error (after (exec (.done 1016 501 12 1 2) line)) = true ∧
      (after (exec (.ready 1016 0 1 0 0) line)).events.frameErrors = 0 := by decide +kernel

/-- A telegram at the front of each own-telegram queue, and a frame at the front of each forward queue. -/
theorem witness_TransmittedFramesLeaveTheirQueues :
    (∃ (s : State) (x : CellTelegram) (rest : List CellTelegram) (tag : Tag),
        s.ports.cellUp = true ∧ s.ports.cellOwn = x :: rest ∧ x.body = .cancel tag) ∧
      (∃ (s : State) (v : Envelope) (c : ChannelId) (st : StationId) (time : LineTime) (content : CopyContent)
        (rest : List UplinkTelegram), s.ports.uplinkUp = true ∧ s.ports.uplinkOwn = .copy v c st time content :: rest) ∧
      (∃ (s : State) (f : Frame) (rest : List Frame), s.ports.toUplink = f :: rest ∧ s.ports.uplinkUp = true ∧
        s.ports.uplinkOwn = []) ∧
      (∃ (s : State) (f : Frame) (rest : List Frame), s.ports.toCell = f :: rest ∧ s.ports.cellUp = true ∧
        s.ports.cellOwn = []) :=
  ⟨⟨{ line with ports := { line.ports with cellOwn := [⟨16, ⟨1016, 100, 0x8F5A⟩, .cancel 501⟩] } }, _, _, _, rfl, rfl,
      rfl⟩,
    ⟨{ line with ports := { line.ports with uplinkOwn := [.copy ⟨300, 100, 0x8F5A⟩ 0 2 5 (.release head)] } }, _, _, _, _,
      _, _, rfl, rfl⟩,
    ⟨{ line with ports := { line.ports with toUplink := [otherFrame] } }, _, _, rfl, rfl, rfl⟩,
    ⟨{ line with ports := { line.ports with toCell := [otherFrame] } }, _, _, rfl, rfl, rfl⟩⟩

/-! ## Bodies -/

/-- Each reason of R5 in its order: a foreign source, stations 3 and 4, an OFFLINE station, no tables, a duplicate, and a
full queue; the malformed values at their bounds. -/
theorem witness_RefusedAnnouncementIsLogged :
    let q := (line2 .manual [body 1 .queued [], body 2 .queued [], body 3 .queued [], body 4 .queued []])
    line.ports.uplinkUp = true ∧ (line.filter.controllerNode ≠ some 55 ∧ line.filter.trackerNode ≠ some 55) ∧
      line.filter.controllerNode = some 7 ∧ line.tracker.stationCount ≤ (3 : Octet).toNat ∧ 3 < (4 : Octet).toNat ∧
      (line.station 0).state = .offline ∧
      { line with banks := { line.banks with validated := false } }.banks.validated = false ∧
      (∃ r ∈ (q.station 2).queue, r.bodyId = 1) ∧ 4 ≤ (q.station 2).queue.length ∧
      (∀ r ∈ (q.station 2).queue, r.bodyId ≠ 5) ∧ 1 < (2 : Octet).toNat ∧ (7 : Node) ≠ line.filter.ownNode := by
  decide +kernel

/-- No station configured: a source that is not known, and, in a state no run reaches, one that is. -/
theorem witness_RefusedAnnouncementIsLogged_unconfigured :
    State.reset.hearsAnnounce 7 8410 0 3120 ∧ State.reset.tracker.stationCount = 0 ∧ ¬State.reset.knowsSource 7 ∧
      { line with tracker := State.reset.tracker }.hearsAnnounce 7 8410 0 3120 ∧
      { line with tracker := State.reset.tracker }.tracker.stationCount = 0 ∧ line.knowsSource 7 := by
  decide +kernel

/-- R5, R162 (log entry 35): at a part that has never been configured an announcement from node 7 is refused, with the reason R5
gives or the one R162 gives. -/
theorem test_announce_unconfigured :
    announceRefusal State.reset 7 8410 0 = some .source ∨ announceRefusal State.reset 7 8410 0 = some .noSuchStation := by
  unfold announceRefusal
  generalize Config.noStationFirst = b
  revert b
  decide +kernel

/-- A station whose queue lacks one record, and the variant bound of 3. -/
theorem witness_AcceptedAnnouncementJoinsTheQueue :
    let s := line2 .manual [body 1 .queued [], body 2 .queued [], body 3 .queued []]
    s.ports.uplinkUp = true ∧ (9 : Node) ≠ 0 ∧ (9 : Node) ≠ 65535 ∧ (9 : Node) ≠ s.filter.ownNode ∧
      (1 : Octet).toNat ≤ 1 ∧ (3 : Octet).toNat ≤ 3 ∧ s.filter.trackerNode = some 9 ∧
      (2 : StationId).val < s.tracker.stationCount ∧ (s.station 2).state ≠ .offline ∧ (s.station 2).state ≠ .idle ∧
      s.banks.validated = true ∧ (∀ r ∈ (s.station 2).queue, r.bodyId ≠ 5) ∧ (s.station 2).queue.length < 4 ∧
      s.recordsInUse.length < 16 := by decide +kernel

/-- The worked case of section 11.5: body 8410 at the IDLE station 2, whose three slots each resolve without a fault; and
the variants 3, taken as it is, and 4 and 255, taken as 3. -/
theorem witness_AcceptedAnnouncementJoinsTheQueue_headStart :
    line.ports.uplinkUp = true ∧ line.filter.trackerNode = some 9 ∧ (2 : StationId).val < line.tracker.stationCount ∧
      (line.station 2).state = .idle ∧ (line.station 2).queue = [] ∧ line.sectionHold = false ∧
      line.banks.validated = true ∧ line.recordsInUse.length < 16 ∧
      (line.banks.tables line.banks.active).styleRow? 3120 = some 12 ∧
      (line.resolutions 2 .a 12 0 32).map (fun x => (x.1, x.2.fault)) = [(16, none), (17, none), (18, none)] ∧
      ¬3 < (3 : Octet).toNat ∧ 3 < (4 : Octet).toNat ∧ 3 < (255 : Octet).toNat := by decide +kernel

/-- An IDLE station whose queue is empty, under a Section Hold; one with a body in its queue, whose queue a NORMAL record joins
at the back and a REWORK one at the front. -/
theorem witness_AcceptedAnnouncementJoinsTheQueue_sectionHold :
    let s := sectionHeld []
    let t := sectionHeld [queued 1]
    s.ports.uplinkUp = true ∧ s.filter.trackerNode = some 9 ∧ (2 : StationId).val < s.tracker.stationCount ∧
      (s.station 2).state = .idle ∧ s.sectionHold = true ∧ s.banks.validated = true ∧ s.recordsInUse.length < 16 ∧
      (t.station 2).state = .idle ∧ (t.station 2).queue.length < 4 ∧ t.recordsInUse.length < 16 ∧
      (joinQueue (t.station 2).queue (queued 5)).head? ≠ some (queued 5) ∧
      (joinQueue (t.station 2).queue { queued 5 with origin := .rework }).head? = some { queued 5 with origin := .rework } := by
  decide +kernel

/-- R134: under a Section Hold the record joins the empty queue and the station stays IDLE. -/
theorem test_announce_under_section_hold :
    let t := after (exec (.announce 9 8410 2 0 3120 32 0) (sectionHeld []))
    (t.station 2).state = .idle ∧ (t.station 2).queue.map (·.state) = [.queued] ∧ t.ports.cellOwn = [] := by decide +kernel

/-- The line with every gun of some slots at its hard limit, 3,000, under a mode of station 2 for Wear Overrun. -/
def worn (slots : List SlotId) (m : FaultMode) : State :=
  { line with
    guns := Vector.ofFn fun g => if g ∈ slots then { line.gun g with wear := 3000 } else line.gun g
    tracker := { line.tracker with stations := line.tracker.stations.set 2 { line.station 2 with
      modes := (line.station 2).modes.set 6 m } } }

/-- The line with station 1 IDLE, at which row 12 has no plan. -/
def idleWithoutPlan : State :=
  { line with tracker := { line.tracker with stations := line.tracker.stations.set 1 { Station.reset with state := .idle } } }

/-- A head start that finds Wear Overrun at slot 17, or at every slot, and one that finds no plan. -/
theorem witness_AcceptedAnnouncementJoinsTheQueue_faults :
    ((worn [17] .hold).resolutions 2 .a 12 0 32).map (fun x => (x.1, x.2.fault)) =
        [(16, none), (17, some .wearOverrun), (18, none)] ∧
      ((worn [16, 17, 18] .pass).resolutions 2 .a 12 0 32).map (·.2.fault) = List.replicate 3 (some .wearOverrun) ∧
      (worn [17] .hold).sectionHold = false ∧ ((worn [17] .hold).station 2).state = .idle ∧
      idleWithoutPlan.resolutions 1 .a 12 0 32 = [] ∧ idleWithoutPlan.sectionHold = false ∧
      (1 : StationId).val < idleWithoutPlan.tracker.stationCount := by decide +kernel

/-- R126: Wear Overrun (bit 6) at slot 17 under HOLD, PASS and WARN: the entries' states and fault sets, the SELECTs sent, and
the station's state; under PASS at every slot the body is released FAULTED (R15). -/
theorem test_head_start_with_faults :
    let run := fun s => after (exec (.announce 9 8410 2 0 3120 32 0) s)
    let entries := fun (s : State) => (((run s).head? 2).map (·.entries)).getD []
    (entries (worn [17] .hold)).map (fun e => (e.state, e.faults, e.held)) =
        [(.selected, 0, false), (.waiting, 64, true), (.selected, 0, false)] ∧
      (entries (worn [17] .pass)).map (fun e => (e.state, e.faults, e.held)) =
        [(.selected, 0, false), (.faulted, 64, false), (.selected, 0, false)] ∧
      (entries (worn [17] .warn)).map (fun e => (e.state, e.faults, e.warned)) =
        [(.selected, 0, false), (.selected, 64, true), (.selected, 0, true)] ∧
      [FaultMode.hold, .pass, .warn].map (fun m => ((run (worn [17] m)).ports.cellOwn.map (·.slot),
          ((run (worn [17] m)).station 2).state)) =
        [([16, 18], .held), ([16, 18], .dispatching), ([16, 17, 18], .dispatching)] ∧
      ((run (worn [16, 17, 18] .pass)).station 2).counters.releasedFaulted = 1 ∧
      ((run (worn [16, 17, 18] .pass)).station 2).state = .idle := by decide +kernel

/-- R15: a head without a plan at any slot is released CLEAN at once. -/
theorem test_head_start_without_plan :
    let t := after (exec (.announce 9 8410 1 0 3120 32 0) idleWithoutPlan)
    (t.station 1).counters.releasedClean = 1 ∧ (t.station 1).queue = [] ∧ (t.station 1).state = .idle ∧
      t.ports.uplinkOwn.length = 1 := by decide +kernel

/-- R6: the variant 4 is taken as 3, with Station Warning 2 (index 6). -/
theorem test_announce_variant_clamped :
    let t := after (exec (.announce 9 8410 2 0 3120 32 4) (line2 .manual []))
    (t.station 2).queue.map (·.variant) = [3] ∧ t.events.flags = 64 := by decide +kernel

/-- R7: a REWORK record goes behind the head and another REWORK record, ahead of the NORMAL one. -/
theorem witness_ReworkRecordJoinsAheadOfNormalOnes :
    let r := { body 4 .queued [] with origin := .rework }
    let queue := [body 1 .active [], { body 2 .queued [] with origin := .rework }, body 3 .queued []]
    r.origin = .rework ∧ reworkFirst queue ∧ (joinQueue queue r).map (·.bodyId) = [1, 2, 4, 3] ∧
      (joinQueue queue (body 5 .queued [])).map (·.bodyId) = [1, 2, 3, 5] := by
  unfold reworkFirst; decide +kernel

/-- The line with a mode of station 2 for Unknown Style. -/
def lineUnderUnknown (m : FaultMode) : State :=
  { line with tracker := { line.tracker with stations := line.tracker.stations.set 2 { line.station 2 with
    modes := (line.station 2).modes.set 8 m } } }

theorem witness_UnknownStyleHeadIsHeld :
    line.ports.uplinkUp = true ∧ (7 : Node) ≠ line.filter.ownNode ∧ line.filter.controllerNode = some 7 ∧
      (2 : StationId).val < line.tracker.stationCount ∧ (line.station 2).state = .idle ∧ (line.station 2).queue = [] ∧
      line.banks.validated = true ∧ line.recordsInUse.length < 16 ∧ line.sectionHold = false ∧
      (line.banks.tables line.banks.active).styleRow? 4100 = none ∧ line.mode 2 .unknownStyle = .hold ∧
      (lineUnderUnknown .pass).mode 2 .unknownStyle = .pass ∧ (lineUnderUnknown .pass).sectionHold = false := by
  decide +kernel

/-- R14: under PASS a head of unknown style is released FAULTED at once. -/
theorem test_unknown_style_passed :
    let t := after (exec (.announce 9 8410 2 0 4100 32 0) (lineUnderUnknown .pass))
    (t.station 2).counters.releasedFaulted = 1 ∧ (t.station 2).state = .idle ∧ (t.station 2).queue = [] ∧
      t.ports.uplinkOwn.length = 1 := by decide +kernel

/-! ## Resolution and currents -/

/-- The worked tables with a number of APPEND overlays of plan 240 on option 5 at slot 17, style row ANY or 12 in turn. -/
def overlaid (n : Nat) : Tables :=
  { workedTables with overlays := (List.range n).map fun i => (2 * i, ⟨5, if i % 2 = 0 then none else some 12, 17, .append, 240⟩) }

/-- Spans 1 and 4 with variants within and beyond them, overlays of both actions, and a resolution with a plan and without. -/
theorem witness_VariantAndOverlaysChooseThePlans :
    variantPlan ⟨220, 1⟩ 0 = (some 220, false) ∧ variantPlan ⟨220, 1⟩ 3 = (some 220, true) ∧
      variantPlan ⟨220, 4⟩ 3 = (some 223, false) ∧
      overlaidPlans (some 220) [⟨5, none, 17, .append, 1⟩, ⟨5, none, 17, .substitute, 2⟩] = some (2, [1]) ∧
      overlaidPlans none [⟨5, none, 17, .append, 1⟩, ⟨6, none, 17, .append, 2⟩] = some (1, [2]) ∧
      (overlaid 4).wf = true ∧ (resolve (overlaid 4) Gun.reset true 12 0 32 17).isSome = true ∧
      resolve (overlaid 4) Gun.reset true 12 0 32 19 = none := by decide +kernel

/-- R56: three matches are taken without a warning; of four the first three are, with Overlay Excess; another option, slot or
row takes none. -/
theorem test_overlays_taken :
    let taken := fun n options row g => (resolve (overlaid n) Gun.reset true row 0 options g).map fun x => (x.overlays, x.warned)
    taken 3 32 12 17 = some ([0, 2, 4], false) ∧ taken 4 32 12 17 = some ([0, 2, 4], true) ∧
      taken 4 16 12 17 = some ([], false) ∧ taken 4 32 12 16 = some ([], false) ∧ taken 4 32 13 17 = some ([0, 4], false) := by
  decide +kernel

/-- Plans 1 to n, each a CALL of the next, in the worked tables. -/
def chained (n : Nat) : Tables :=
  { workedTables with plans := ((List.range n).map fun i => (i + 1, ⟨1, 0, 0, [.call (i + 2)]⟩)) ++ workedTables.plans }

/-- One group joins an empty buffer, one joins 23, and none joins 24; a chain of six plans and one of five. -/
theorem witness_ExpansionLeavesAtMost24Groups :
    let buffer := fun n => List.replicate n (ExpandedGroup.mk 4 8 ⟨1040, 260, 0⟩ [])
    (expandAll workedTables [210] (buffer 0)).map List.length = .ok 1 ∧
      (expandAll workedTables [210] (buffer 23)).map List.length = .ok 24 ∧
      (expandAll workedTables [] (buffer 24)).map List.length = .ok 24 ∧
      ((chained 5).plan? 5).map (·.steps.head?) = some (some (.call 6)) ∧ (chained 5).plan? 6 = none ∧
      ((chained 4).plan? 4).map (·.steps) = some [.call 5] ∧ (chained 4).plan? 5 = none ∧
      (workedTables.plan? 210).map (·.steps.head?) = some (some (.group 3 12)) ∧ (buffer 24).length = 24 := by
  decide +kernel

/-- Plan 1 is a group, a CALL of plan 2, and a group behind it. -/
def nested : Tables :=
  { workedTables with
    plans := [(1, ⟨1, 0, 0, [.group 4 5, .call 2, .group 3 7]⟩), (2, ⟨1, 0, 0, [.group 3 6]⟩)]
    schedules := [(3, ⟨920, 240, 1⟩), (4, ⟨1040, 260, 0⟩)]
    curves := [(1, [⟨0, 0⟩, ⟨1000, 40⟩])] }

/-- A group of schedule 3, with its curve. -/
def curvedGroup (spots : Nat) : ExpandedGroup := ⟨3, spots, ⟨920, 240, 1⟩, [⟨0, 0⟩, ⟨1000, 40⟩]⟩

theorem nested_group (spots : Nat) : GroupOf nested 3 spots (curvedGroup spots) :=
  .curved (entry := ⟨920, 240, 1⟩) rfl (by decide) rfl

/-- R59, R62: it lays out three groups, the called plan's in the CALL's place; behind 22 groups the one after the CALL is the
25th. -/
theorem witness_ExpansionLeavesAtMost24Groups_content :
    LaidOut nested 0 [.group 4 5, .call 2, .group 3 7]
        (⟨4, 5, ⟨1040, 260, 0⟩, []⟩ :: ([curvedGroup 6] ++ [curvedGroup 7])) ∧
      StepsFail nested 0 [.group 4 5, .call 2, .group 3 7] 22 .length :=
  have inner := LaidOut.group (depth := 1) (nested_group 6) .done
  have first : GroupOf nested 4 5 ⟨4, 5, ⟨1040, 260, 0⟩, []⟩ := .plain rfl rfl
  ⟨.group first (.call (by decide) rfl inner (.group (nested_group 7) .done)),
    .afterGroup (by decide) first (.afterCall (by decide) rfl inner (by decide) (.length (by decide)))⟩

/-- R59, R61: what the model expands that plan to. -/
theorem test_expansion_resumes_after_a_call :
    expandTop nested 1 [] = .ok [⟨4, 5, ⟨1040, 260, 0⟩, []⟩, curvedGroup 6, curvedGroup 7] ∧
      expandTop nested 1 (List.replicate 22 ⟨4, 8, ⟨1040, 260, 0⟩, []⟩) = .error .length := by
  decide +kernel

/-- R60, R61, R62: the fifth nested CALL fails with depth although plan 6 is empty, the fourth with missing as plan 5 is; a plan
that calls itself fails with depth; a GROUP step that meets 24 groups fails with length, and an empty schedule with missing. -/
theorem test_expansion_fails :
    let kind := fun (t : Tables) plan n => (match expandTop t plan (List.replicate n ⟨4, 8, ⟨1040, 260, 0⟩, []⟩) with
      | .error k => some k
      | .ok _ => none)
    let odd := { workedTables with plans := [(1, ⟨1, 0, 0, [.call 1]⟩), (2, ⟨1, 0, 0, [.group 9 1]⟩)] }
    kind (chained 5) 1 0 = some .depth ∧ kind (chained 4) 1 0 = some .missing ∧ kind odd 1 0 = some .depth ∧
      kind workedTables 210 24 = some .length ∧ kind odd 2 24 = some .length ∧ kind odd 2 23 = some .missing := by
  decide +kernel

/-- The curve of the worked cases of R82. -/
def workedCurve : List Breakpoint := [⟨0, 0⟩, ⟨1000, 40⟩, ⟨2500, 100⟩, ⟨4000, 160⟩]

theorem witness_CurrentNeverFallsAsWearGrows :
    curveOrdered workedCurve = true ∧ 500 ≤ 3000 ∧ workedCurve.head? = some ⟨0, 0⟩ ∧
      workedCurve.getLast? = some ⟨4000, 160⟩ ∧ workedCurve[1]? = some ⟨1000, 40⟩ ∧ workedCurve[1 + 1]? = some ⟨2500, 100⟩ ∧
      1000 ≤ 1830 ∧ 1830 < 2500 ∧ 4000 ≤ 5000 := by decide

/-- The worked cases of R82: base 920 and ceiling 1,000 at wears 0, 1,830 and 5,000, where the last is clamped. -/
theorem test_worked_currents :
    [0, 1830, 2500, 5000].map (curveRaise workedCurve) = [0, 73, 100, 160] ∧
      [0, 1830, 5000].map (fun w => steppedCurrent 920 (curveRaise workedCurve w) 1000) = [920, 987, 1000] ∧
      currentClamped 920 73 1000 = false ∧ currentClamped 920 160 1000 = true := by decide

/-! ## The slot handshake -/

theorem witness_SelectTransmitStartsTheReadyTimer :
    selecting.ports.cellUp = true ∧ selecting.ports.cellOwn = [waitingSelect] ∧
      (match waitingSelect.body with | .select _ => True | .cancel _ => False) ∧
      (selecting.tagOwner? waitingSelect.slot).isSome = true ∧ selecting.mode 2 .readyTimeout ≠ .off :=
  ⟨rfl, rfl, trivial, by decide +kernel, by decide +kernel⟩

/-- R11, R184: an image's ready limit of 500 is the station's at once, and a SELECT of the head in progress keeps the 3,000 that
stood when it started; a head that starts takes the limit of that moment. -/
theorem test_ready_limit_of_a_head :
    let image : ImageConfig := ⟨⟨0x8F5A, 100, 7, some 9, 3, [2, 1, 3], []⟩, [(500, []), (500, []), (500, [])], 0, []⟩
    let s := selecting.applySettings image false
    (s.station 2).readyLimit = 500 ∧ ((after (exec .selectTransmit s)).tagState 16).readyTimer = some 103000 ∧
      ((after (exec (.announce 9 8410 2 0 3120 32 0) (line.applySettings image false))).station 2).headLimit = 500 := by
  decide +kernel

theorem witness_ReadyLoadedLoadsTheEntry :
    let e := entry 1 225 17 14 .selected 77
    atWork.answersFor 1017 77 17 e ∧ e.state = .selected ∧ hasFault e.faults .readyRefused = false ∧
      e.program = some (17 : Octet).toNat := by decide +kernel

/-- A station 2 at work whose mode for one kind is another one. -/
def atWorkUnder (k : FaultKind) (m : FaultMode) : State :=
  { atWork with tracker := { atWork.tracker with stations := atWork.tracker.stations.set 2 { atWork.station 2 with
    modes := (atWork.station 2).modes.set k.number m } } }

/-- REFUSED, and a program that is not the entry's, under HOLD and under PASS. -/
theorem witness_ReadyLoadedLoadsTheEntry_refused :
    let e := entry 1 225 17 14 .selected 77
    let p := atWorkUnder .readyRefused .pass
    atWork.unmirrored 2 .slotFault ∧ atWork.mode 2 .readyRefused = .hold ∧ e.program ≠ some (0 : Octet).toNat ∧
      p.answersFor 1017 77 17 e ∧ p.mode 2 .readyRefused = .pass ∧ p.unmirrored 2 .slotFault ∧
      p.head? (stationOf 17) = some head ∧ entry 0 210 11 12 .loaded 501 ∈ head.entries ∧
      (0 : Position) ≠ positionOf 17 ∧ (entry 0 210 11 12 .loaded 501).ended = false := by decide +kernel

/-- Station 2 with one kind under PASS, and the last entry still working of its head. -/
def lastUnder (k : FaultKind) (e : SlotEntry) : State :=
  let s := atWorkUnder k .pass
  { s with tracker := { s.tracker with stations := s.tracker.stations.set 2 { s.station 2 with
    queue := [body 7701 .active [e]] } } }

/-- REFUSED and a wrong program under PASS at the last entry still working: what is left has nothing that works or is held. -/
theorem witness_ReadyLoadedLoadsTheEntry_last :
    let e := entry 1 225 17 14 .selected 77
    let s := lastUnder .readyRefused e
    let left := ((s.faulted 17 .readyRefused).station 2).queue
    s.answersFor 1017 77 17 e ∧ hasFault e.faults .readyRefused = false ∧ e.program ≠ some (0 : Octet).toNat ∧
      left.map (fun r => (r.state, r.bodyHeld)) = [(.active, false)] ∧
      ∀ r ∈ left, ∀ y ∈ r.entries, y.ended = true ∧ y.held = false := by decide +kernel

/-- R16, R17: Ready Refused, Ready Timeout and Cycle Timeout under PASS at the last entry still working release the head
FAULTED. -/
theorem test_pass_at_the_last_entry_releases :
    let e := entry 1 225 17 14 .selected 77
    let left := fun o => let x := (after o).station 2; (x.state, x.queue.length, x.counters.releasedFaulted)
    left (exec (.ready 1017 77 2 9 0) (lastUnder .readyRefused e)) = (.idle, 0, 1) ∧
      left (exec (.ready 1017 77 1 0 9) (lastUnder .readyRefused e)) = (.idle, 0, 1) ∧
      left (exec (.readyTimeout 17) { lastUnder .readyTimeout e with lineTime := 103003 }) = (.idle, 0, 1) ∧
      left (exec (.cycleTimeout 16)
        { lastUnder .cycleTimeout (entry 0 210 11 12 .loaded 501) with lineTime := 105300 }) = (.idle, 0, 1) := by
  decide +kernel

theorem witness_DoneFinishesTheEntryAndWearsTheGun :
    let e := entry 1 225 17 14 .selected 77
    atWork.answersFor 1017 77 17 e ∧ e.state = .selected ∧ (1 : Octet).toNat ≤ 1 ∧
      atWork.doneFaults 17 e (14 : Octet).toNat false = [] ∧ atWork.head? (stationOf 17) = some head ∧
      entry 0 210 11 12 .loaded 501 ∈ head.entries ∧ (0 : Position) ≠ positionOf 17 ∧
      (entry 0 210 11 12 .loaded 501).ended = false ∧ atWork.unmirrored (stationOf 17) .slotDone := by decide +kernel

/-- 13 of 14 spots and a reject: both kinds where their modes are not OFF, and the strongest mode that governs. -/
theorem witness_DoneFinishesTheEntryAndWearsTheGun_faults :
    let e := entry 1 225 17 14 .selected 77
    let h := atWorkUnder .qualityReject .hold
    atWork.unmirrored 2 .slotFault ∧ atWork.doneFaults 17 e 13 true = [.spotShortfall, .qualityReject] ∧
      atWork.mode 2 .spotShortfall = .pass ∧ h.answersFor 1017 77 17 e ∧ h.mode 2 .qualityReject = .hold ∧
      h.unmirrored 2 .slotDone ∧ h.unmirrored 2 .slotFault ∧
      (atWorkUnder .spotShortfall .off).doneFaults 17 e 13 true = [.qualityReject] ∧
      (atWork.doneFaults 17 e 14 false) = [] := by decide +kernel

/-- The only entry of a head ends: the head is released, alone in its queue and with a body behind it. -/
theorem witness_DoneFinishesTheEntryAndWearsTheGun_release :
    let e := entry 0 210 11 12 .loaded 501
    let s := fun rest => { line2 .dispatching (body 7701 .active [e] :: rest) with
      lineTime := 105300, tags := atWork.tags }
    let r := body 7701 .active [{ e with spotsWelded := some 12, state := .finished }]
    let ended := fun rest => ((s rest).station 2).modifyHead fun r => r.modifyEntry 0 fun e =>
      { e with spotsWelded := some 12, state := .finished }
    (s []).answersFor 1016 501 16 e ∧ (s []).doneFaults 16 e 12 false = [] ∧ (ended []).queue = [r] ∧
      (ended [body 7702 .queued []]).queue = [r, body 7702 .queued []] ∧ r.state = .active ∧ r.bodyHeld = false ∧
      (∀ y ∈ r.entries, y.ended = true ∧ y.held = false) ∧ (s []).unmirrored 2 .release ∧
      (s []).unmirrored 2 .slotDone ∧ (s []).unmirrored 2 .slotFault := by decide +kernel

/-- R16, R125: a DONE without a fault that ends the last entry still working, while another ended entry is held, leaves the head
and the HELD station. -/
theorem test_done_beside_a_held_mark :
    let s := { line2 .held [body 7701 .active
        [{ entry 0 210 11 12 .finished 501 with held := true }, entry 1 225 17 14 .selected 77]] with
      lineTime := 102900, tags := atWork.tags }
    let x := (after (exec (.done 1017 77 14 1 0) s)).station 2
    s.doneFaults 17 (entry 1 225 17 14 .selected 77) 14 false = [] ∧ x.state = .held ∧
      x.queue.map (fun r => r.entries.map fun y => (y.state, y.held)) = [[(.finished, true), (.finished, false)]] := by
  decide +kernel

/-- R16, R17: that DONE, with a spot missing, releases the head CLEAN under WARN and FAULTED under PASS. -/
theorem test_done_releases :
    let go := fun m =>
      let x := { Station.reset with
        state := .dispatching, queue := [body 7701 .active [entry 0 210 11 12 .loaded 501]]
        modes := Station.reset.modes.set 4 m }
      let s := { atWork with
        lineTime := 105300
        tracker := { atWork.tracker with stations := atWork.tracker.stations.set 2 x } }
      ((after (exec (.done 1016 501 11 1 0) s)).station 2).counters
    (go .warn).releasedClean = 1 ∧ (go .pass).releasedFaulted = 1 := by decide +kernel

/-- The tags 76, cancelled, and 5, neither current nor cancelled. -/
theorem witness_StaleAndLateTelegramsAreOnlyCounted :
    atWork.ports.cellUp = true ∧ (1017 : Node) ≠ atWork.filter.ownNode ∧ atWork.slotOfNode? 1017 = some 17 ∧
      (76 : Tag) ≠ 0 ∧ (76 : Tag) ≠ (atWork.tagState 17).current ∧ (76 : Tag) = (atWork.tagState 17).cancelled ∧
      (5 : Tag) ≠ (atWork.tagState 17).current ∧ (5 : Tag) ≠ (atWork.tagState 17).cancelled ∧
      (1 : Octet).toNat ≤ 1 := by decide +kernel

/-- The current tag: of an entry LOADED, of one SELECTED whose SELECT still waits, of one that has ended, and of none. -/
theorem witness_StaleAndLateTelegramsAreOnlyCounted_duplicate :
    let ended := line2 .dispatching [body 8410 .active [entry 0 210 11 12 .finished 501]]
    let ended := { ended with tags := atWork.tags }
    atWork.slotOfNode? 1016 = some 16 ∧ (501 : Tag) = (atWork.tagState 16).current ∧
      atWork.tagOwner? 16 = some (entry 0 210 11 12 .loaded 501) ∧ atWork.selectWaiting 16 = false ∧
      selecting.ports.cellUp = true ∧ selecting.slotOfNode? 1016 = some 16 ∧
      (501 : Tag) = (selecting.tagState 16).current ∧
      selecting.tagOwner? 16 = some (entry 0 210 11 12 .selected 501) ∧ selecting.selectWaiting 16 = true ∧
      (501 : Tag) = (ended.tagState 16).current ∧ ended.tagOwner? 16 = some (entry 0 210 11 12 .finished 501) ∧
      (entry 0 210 11 12 .finished 501).ended = true ∧
      { line with tags := atWork.tags }.tagOwner? 16 = none := by decide +kernel

/-- The ready timer of slot 17 exactly at its expiry and one millisecond before it; the cycle timer of slot 16 the same. -/
theorem witness_TimeoutUnderHoldHoldsTheStation :
    (atWork.tagState 17).readyTimer = some 103003 ∧ ((103003 : LineTime) - 103003).toNat < 2 ^ 31 ∧
      ¬((103002 : LineTime) - 103003).toNat < 2 ^ 31 ∧ (atWork.tagOwner? 17).isSome = true ∧
      (atWork.tagState 16).cycleTimer = some 105300 ∧ (atWork.tagOwner? 16).isSome = true ∧
      atWork.unmirrored 2 .slotFault ∧ atWork.mode 2 .readyTimeout = .hold ∧ atWork.mode 2 .cycleTimeout = .hold ∧
      (atWork.tagState 16).readyTimer = none ∧ (atWork.tagState 17).cycleTimer = none := by decide +kernel

/-- The ready timer of slot 17 and the cycle timer of slot 16 under PASS, the other entry not ended, and under WARN. -/
theorem witness_TimeoutUnderHoldHoldsTheStation_modes :
    let p := atWorkUnder .readyTimeout .pass
    let q := atWorkUnder .cycleTimeout .pass
    let w := atWorkUnder .readyTimeout .warn
    p.tagOwner? 17 = some (entry 1 225 17 14 .selected 77) ∧ (p.tagState 17).current ≠ 0 ∧
      (p.tagState 17).readyTimer = some 103003 ∧ p.mode 2 .readyTimeout = .pass ∧ p.unmirrored 2 .slotFault ∧
      q.tagOwner? 16 = some (entry 0 210 11 12 .loaded 501) ∧ (q.tagState 16).current ≠ 0 ∧
      (q.tagState 16).cycleTimer = some 105300 ∧ q.mode 2 .cycleTimeout = .pass ∧ q.unmirrored 2 .slotFault ∧
      p.head? 2 = some head ∧ q.head? 2 = some head ∧ head.entries.map (fun e => (e.position, e.ended)) =
        [(positionOf 16, false), (positionOf 17, false)] ∧ w.mode 2 .readyTimeout = .warn := by decide +kernel

/-- Both timeouts under PASS at the last entry still working. -/
theorem witness_TimeoutUnderHoldHoldsTheStation_last :
    let e := entry 1 225 17 14 .selected 77
    let f := entry 0 210 11 12 .loaded 501
    let s := lastUnder .readyTimeout e
    let u := lastUnder .cycleTimeout f
    let left := ((s.faulted 17 .readyTimeout).station 2).queue ++ ((u.faulted 16 .cycleTimeout).station 2).queue
    s.tagOwner? 17 = some e ∧ (s.tagState 17).readyTimer = some 103003 ∧ u.tagOwner? 16 = some f ∧
      (u.tagState 16).cycleTimer = some 105300 ∧
      left.map (fun r => (r.state, r.bodyHeld)) = [(.active, false), (.active, false)] ∧
      ∀ r ∈ left, ∀ y ∈ r.entries, y.ended = true ∧ y.held = false := by decide +kernel

/-! ## The Uplink own-telegram queue -/

/-- A state with some telegrams in the Uplink own-telegram queue. -/
def sending (queue : List UplinkTelegram) : State := { line with ports := { line.ports with uplinkOwn := queue } }

/-- One RELEASE waiting; with the bank of its tag DRAINING, its departure ends the drain. -/
theorem witness_ReleaseTransmitFreesTheRecord :
    let r := body 5501 .releasing []
    let s := sending [.release ⟨7, 100, 0x8F5A⟩ r]
    let d := { s with banks := { s.banks with active := .b, other := .draining } }
    s.ports.uplinkUp = true ∧ s.ports.uplinkOwn = [.release ⟨7, 100, 0x8F5A⟩ r] ∧ d.banks.other = .draining ∧
      d.tagCount d.banks.active.other = 1 ∧ (after (exec .releaseTransmit d)).banks.other = .shadow := by decide +kernel

theorem witness_ReplyAndNoticeTransmitReportToTheirOwners :
    let e : RequestEntry := ⟨7, 1, 0x01, [], true⟩
    let s := { sending [.reply ⟨7, 100, 0x8F5A⟩ 1 0x01 .done 0 []] with agent := ⟨[e], .live, none⟩ }
    s.ports.uplinkUp = true ∧ s.ports.uplinkOwn = [.reply ⟨7, 100, 0x8F5A⟩ 1 0x01 .done 0 []] ∧ (0x01 : Octet) ≠ 0x54 ∧
      s.agent.requests = [e] ∧ e.answered = true ∧ (sending [.notice]).ports.uplinkOwn = [.notice] := by decide +kernel

theorem witness_RestartDiscardsWorkAndKeepsSettings :
    let s := { sending [.reply ⟨7, 100, 0x8F5A⟩ 1 0x54 .done 0 []] with agent := ⟨[⟨7, 1, 0x54, [], true⟩], .live, none⟩ }
    s.ports.uplinkUp = true ∧ s.ports.uplinkOwn = [.reply ⟨7, 100, 0x8F5A⟩ 1 0x54 .done 0 []] := by decide +kernel

/-- Flag 8 set and enabled where it was not; and the marker set, or no flag risen. -/
theorem witness_NoticeIsQueuedOnceAtTheBack :
    let t := { line with events := { line.events with flags := 256, enables := 256 } }
    (∃ i : Fin 29, t.events.flags.getLsbD i = true ∧ t.events.enables.getLsbD i = true ∧
        ¬(line.events.flags.getLsbD i = true ∧ line.events.enables.getLsbD i = true)) ∧
      t.events.noticePending = false ∧
      { t with events := { t.events with noticePending := true } }.events.noticePending = true ∧
      ¬(∃ i : Fin 29, line.events.flags.getLsbD i = true ∧ line.events.enables.getLsbD i = true ∧
        ¬(line.events.flags.getLsbD i = true ∧ line.events.enables.getLsbD i = true)) := by decide +kernel

/-! ## Requests -/

/-- The controller's REQUEST finds 3 entries, and 4; and any node is taken while no controller is configured. -/
theorem witness_RequestJoinsTheQueueOrIsDropped :
    let e : RequestEntry := ⟨7, 1, 0x01, [], false⟩
    let s := { line with agent := ⟨[e, e, e], .live, none⟩ }
    let full := { line with agent := ⟨[e, e, e, e], .live, none⟩ }
    s.ports.uplinkUp = true ∧ (7 : Node) ≠ s.filter.ownNode ∧ s.filter.controllerNode = some 7 ∧
      s.agent.requests.length = 3 ∧ full.agent.requests.length = 4 ∧ State.reset.filter.controllerNode = none ∧
      (65534 : Node) = State.reset.filter.ownNode := by decide +kernel

/-- A request is executed; and one for each of the three reasons why none is. -/
theorem witness_EveryRequestIsAnsweredByOneReply :
    (asking line 0x14 []).executes (decodeRequest 0x14 []) ⟨7, 1, 0x14, [], false⟩ ∧
      State.reset.loader.activity = .powerUpLoad ∧
      { line with agent := ⟨[⟨7, 1, 0x54, [], true⟩], .live, none⟩ }.restartAwaits = true ∧
      line.frontWaiting? = none := by decide +kernel

/-- Two pairs where the pair count is 2, two robot nodes where the slot count is 2, an option other than ARM; the octets that
run short by one, and a code between those of the table. -/
theorem witness_EveryRequestIsAnsweredByOneReply_codes :
    decodeRequest 0x21 [3, 2, 0, 1, 8, 0, 9] = .setFaultModes 3 [(0, 1), (8, 0)] ∧
      decodeRequest 0x50 [0x8F, 0x5A, 0, 1, 0, 2, 0, 0, 1, 2, 0, 3, 0, 4, 9] = .configure 0x8F5A 1 2 0 1 [2] [3, 4] ∧
      decodeRequest 0x42 [0, 0, 9] = .setMirror 0 0 0 0 0 0 0 ∧
      ([0, 1, 8] : List Octet).length < 2 * (2 : Octet).toNat ∧ ([0, 15, 0, 1, 0] : List Octet).length < 6 ∧
      ([0, 3, 0] : List Octet).length < 2 * (([2] : List Octet).map BitVec.toNat).sum ∧
      ([] : List Octet).length < (1 : Octet).toNat ∧ decodeRequest 0x07 [] = .undefinedRequest 0x07 := by decide +kernel

theorem witness_ReadRequestsChangeNothing :
    (asking line 0x01 []).executes .readStatus ⟨7, 1, 0x01, [], false⟩ ∧
      (asking line 0x06 []).executes .readRefusals ⟨7, 1, 0x06, [], false⟩ ∧
      (asking atWork 0x02 [2, 0]).executes (.readBody 2 0) ⟨7, 1, 0x02, [2, 0], false⟩ ∧
      (asking line 0x03 [0, 0, 0, 63, 0, 1]).executes (.readTable 0 0 63 1) ⟨7, 1, 0x03, [0, 0, 0, 63, 0, 1], false⟩ ∧
      (asking line 0x04 [31, 1]).executes (.readGun 31 1) ⟨7, 1, 0x04, [31, 1], false⟩ ∧
      (asking line 0x07 []).executes (.undefinedRequest 0x07) ⟨7, 1, 0x07, [], false⟩ ∧
      (asking line 0x54 []).executes .restart ⟨7, 1, 0x54, [], false⟩ := by decide +kernel

/-- READ TABLE's octets of plans 224 and 225 read back to no record and to plan 225's: two GROUP steps, of 8 and of 6 spots; and
of 255 plans of 12 steps, at 43 octets each, 34 fit 1,486 octets. -/
theorem witness_ReadRequestsChangeNothing_readTable :
    let full := { workedTables with
      plans := (List.range 255).map fun i => (i + 1, ⟨1, 0, 0, List.replicate 12 (.group 3 1)⟩) }
    workedTables.inRange ∧ workedTables.runOctets .plans 224 2 =
        [2, 0, 1, 17, 0x03, 0xE8, 0x1B, 0x58, 2, 0, 4, 8, 0, 3, 6] ∧
      readRecords .plans 14 [0, 1, 17, 0x03, 0xE8, 0x1B, 0x58, 2, 0, 4, 8, 0, 3, 6] =
        some [.ok none, .ok (some (.plan ⟨17, 1000, 7000, [.group 4 8, .group 3 6]⟩))] ∧
      (full.runOctets .plans 1 255).length = 1 + 34 * 43 :=
  ⟨inRange_workedTables, by decide +kernel, by decide +kernel, by decide +kernel⟩

theorem witness_ReadCountersClearsOnRequest :
    (asking line 0x05 [0]).executes (.readCounters 0) ⟨7, 1, 0x05, [0], false⟩ ∧
      (asking line 0x05 [1]).executes (.readCounters 1) ⟨7, 1, 0x05, [1], false⟩ ∧
      (asking line 0x05 [2]).executes (.readCounters 2) ⟨7, 1, 0x05, [2], false⟩ := by decide +kernel

/-- R175, R192: 24 station counters and 6 part counters of 2 octets, and 4 octets for each of 8 channels; a guard drop counter of
259 stands behind the 48 octets of the station counters. -/
theorem test_read_counters_data :
    let s := { line with events := { line.events with guardDrops := 259 } }
    s.counterOctets.length = 92 ∧ (s.counterOctets.drop 48).take 2 = [1, 3] := by decide +kernel

/-- R160, R192: a HELD station (bit 0) under SECTION (bit 2) of a LIVE part (bit 3), with a long operation (bit 4). -/
theorem test_summary_octet : (busyWith (sectionHeld []) .copyBank).summary = 0b00011101 := by decide +kernel

/-- R191: the body of a RELEASE of one entry is 48 octets, with CLEAN at octet 13, one entry at octet 27, and its state FINISHED
and marks warned and held at octets 1 and 10 of the entry. -/
theorem test_release_octets :
    let e := { entry 1 225 17 14 .finished 77 with warned := true, held := true, overlays := [0] }
    let os := releaseOctets { body 8410 .releasing [e] with outcome := some .clean }
    os.length = 48 ∧ os[13]? = some 0 ∧ os[27]? = some 1 ∧ os[29]? = some 3 ∧ os[38]? = some 17 ∧
      os.drop 42 = [0, 77, 1, 0, 0, 0] := by decide +kernel

/-! ## Table banks -/

/-- The last index of the Schedule Table of bank B. -/
theorem witness_WriteTableWritesItsRun :
    let s := asking line 0x10 [1, 4, 0, 64, 0, 1, 1, 3, 0x52, 0, 220, 2]
    let octets : List Octet := [1, 3, 0x52, 0, 220, 2]
    let records : List (Except RecordCheck (Option Record)) := [.ok (some (.schedule ⟨850, 220, 2⟩))]
    s.executes (.writeTable 1 4 64 1 octets) ⟨7, 1, 0x10, [1, 4, 0, 64, 0, 1] ++ octets, false⟩ ∧ s.tablesCanonical ∧
      bankOf? 1 = some .b ∧ tableOf? 4 = some .schedules ∧
      readRecords .schedules octets.length octets = some records ∧ records.length = (1 : BitVec 16).toNat ∧
      TableId.schedules.firstIndex ≤ (64 : BitVec 16).toNat ∧
      (64 : BitVec 16).toNat + (1 : BitVec 16).toNat ≤ TableId.schedules.firstIndex + TableId.schedules.capacity ∧
      s.banks.active ≠ .b ∧ s.banks.other = .shadow ∧ s.running .copyBank = false ∧ s.running .loadImage = false ∧
      firstFailure (s.banks.tables .b) (64 : BitVec 16).toNat records = none := by decide +kernel

/-- Bank 2, table 6, count 0; indexes 0 and 65 of the Schedule Table; a count that does not match; the ACTIVE bank; a bank
that is VALIDATING; a copy running; and a base current of 1,801 (Range). -/
theorem witness_WriteTableIsCheckedInOrder :
    let os : List Octet := [1, 7, 9, 0, 220, 2]
    let s := asking line 0x10 ([1, 4, 0, 1, 0, 1] ++ os)
    s.executes (.writeTable 1 4 1 1 os) ⟨7, 1, 0x10, [1, 4, 0, 1, 0, 1] ++ os, false⟩ ∧
      bankOf? 2 = none ∧ tableOf? 6 = none ∧ TableId.schedules.inRange 0 = false ∧
      TableId.schedules.inRange 65 = false ∧ readRecords .schedules os.length os = some [.error .range] ∧
      ([.error .range] : List (Except RecordCheck (Option Record))).length = (1 : BitVec 16).toNat ∧
      TableId.schedules.inRange 1 = true ∧ s.banks.active = .a ∧ s.banks.other = .shadow ∧
      { s.banks with other := .validating }.other ≠ .shadow ∧ (busyWith s .copyBank).running .copyBank = true ∧
      s.running .copyBank = false ∧ s.running .loadImage = false ∧
      firstFailure (s.banks.tables .b) 1 [.error .range] = some (0, .range) := by decide +kernel

/-- Records of each table at their least and greatest lengths; a count that does not match; and style codes that an entry
outside the run, or an earlier record of it, holds. -/
theorem witness_WriteTableIsCheckedInOrder_records :
    let step : Octet × Octet × Octet := (0, 3, 12)
    let point : BitVec 16 × BitVec 16 := (500, 0)
    let style : Nat → Except RecordCheck (Option Record) := fun row => .ok (some (.style ⟨3120, row⟩))
    ([] : List (Octet × Octet × Octet)).length = (0 : Octet).toNat ∧
      (List.replicate 12 step).length = (12 : Octet).toNat ∧ (List.replicate 255 step).length = (255 : Octet).toNat ∧
      (List.replicate 2 point).length = (2 : Octet).toNat ∧ (List.replicate 8 point).length = (8 : Octet).toNat ∧
      ([] : List Octet).length < 3 * (1 : Octet).toNat ∧ (List.replicate 7 (0 : Octet)).length < 4 * (2 : Octet).toNat ∧
      1 < (2 : Octet).toNat ∧ (List.replicate 2 (0 : Octet)).length < 3 ∧
      readRecords .styles 4 [1, 12, 48, 12] = some [style 12] ∧ readRecords .styles 3 [1, 12, 48] = none ∧
      [style 12].length ≠ (2 : BitVec 16).toNat ∧ firstFailure workedTables 1 [style 12] = some (0, .duplicateCode) ∧
      firstFailure workedTables 0 [style 12] = none ∧
      firstFailure workedTables 0 [style 12, .ok none, style 5] = some (2, .duplicateCode) := by decide +kernel

/-- The whole matrix, and the bounds of plan and span. -/
theorem witness_WriteBlockFillsItsRectangle :
    let s := asking line 0x11 [1, 0, 63, 0, 31, 0, 2, 0, 4]
    s.executes (.writeBlock 1 0 63 0 31 0 [2, 0, 4]) ⟨7, 1, 0x11, [1, 0, 63, 0, 31, 0, 2, 0, 4], false⟩ ∧
      s.tablesCanonical ∧ bankOf? 1 = some .b ∧ (63 : Octet).toNat ≤ 63 ∧ (31 : Octet).toNat ≤ 31 ∧
      ((2 : Octet) ++ (0 : Octet)).toNat ≤ 512 ∧ (4 : Octet).toNat ≤ 4 ∧ s.banks.active ≠ .b ∧
      s.banks.other = .shadow ∧ s.running .copyBank = false ∧ s.running .loadImage = false := by decide +kernel

/-- A list over the two cells at the far corner of the matrix. -/
theorem witness_WriteBlockFillsItsRectangle_list :
    let cells : List (Octet × Octet × Octet) := [(2, 0, 4), (0, 0, 1)]
    let s := asking line 0x11 [1, 63, 63, 30, 31, 1, 2, 0, 4, 0, 0, 1]
    s.executes (.writeBlock 1 63 63 30 31 1 (cells.flatMap fun x => [x.1, x.2.1, x.2.2]))
        ⟨7, 1, 0x11, [1, 63, 63, 30, 31, 1, 2, 0, 4, 0, 0, 1], false⟩ ∧ s.tablesCanonical ∧
      cells.length = (63 - 63 + 1) * (31 - 30 + 1) ∧
      (cells.map fun x => ((x.1 ++ x.2.1).toNat, x.2.2.toNat)) = [(512, 4), (0, 1)] ∧
      s.banks.active ≠ .b ∧ s.banks.other = .shadow ∧ s.running .copyBank = false ∧ s.running .loadImage = false := by
  decide +kernel

/-- A second cell of span 5 behind a sound one; a copy running; the ACTIVE bank; and bounds beyond the matrix. -/
theorem witness_WriteBlockFillsItsRectangle_refused :
    let u := asking line 0x11 [1, 63, 63, 30, 31, 1, 2, 0, 4, 0, 0, 5]
    u.executes (.writeBlock 1 63 63 30 31 1 [2, 0, 4, 0, 0, 5])
        ⟨7, 1, 0x11, [1, 63, 63, 30, 31, 1, 2, 0, 4, 0, 0, 5], false⟩ ∧
      ([2, 0, 4, 0, 0, 5] : List Octet).drop (3 * 1) = [0, 0, 5] ∧ 4 < (5 : Octet).toNat ∧
      ([2, 0, 4, 0, 0, 5] : List Octet).take 3 = [2, 0, 4] ∧ ((2 : Octet) ++ (0 : Octet)).toNat ≤ 512 ∧
      (busyWith u .copyBank).running .copyBank = true ∧ bankOf? 0 = some .a ∧ u.banks.active = .a ∧
      63 < (64 : Octet).toNat ∧ 31 < (32 : Octet).toNat ∧ 1 < (2 : Octet).toNat := by decide +kernel

theorem witness_ClearBankEmptiesTheShadowBank :
    (asking line 0x12 [1]).executes (.clearBank 1) ⟨7, 1, 0x12, [1], false⟩ ∧ bankOf? 1 = some .b ∧
      bankOf? 0 = some .a ∧ bankOf? 2 = none := by decide +kernel

theorem witness_LongOperationsTakeTheSlot :
    (asking line 0x13 []).executes .copyBank ⟨7, 1, 0x13, [], false⟩ ∧
      (asking line 0x14 []).executes .swap ⟨7, 1, 0x14, [], false⟩ ∧
      (asking line 0x53 []).executes .loadImage ⟨7, 1, 0x53, [], false⟩ ∧
      (asking line 0x52 []).executes .storeImage ⟨7, 1, 0x52, [], false⟩ := by decide +kernel

/-- A copy running and none; a validation that fails, by an overlay whose plan is missing, and one that passes. -/
theorem witness_BankOperationsComplete :
    let s := busyWith line .swap
    let v := { s with banks := { s.banks with other := .validating, tablesB := workedTables } }
    let bad := { workedTables with overlays := [(0, ⟨5, none, 17, .append, 300⟩)] }
    (busyWith line .copyBank).running .copyBank = true ∧ line.running .copyBank = false ∧ v.running .swap = true ∧
      v.banks.other = .validating ∧ validationFailure (v.banks.tables v.banks.active.other) = none ∧
      v.banks.validated = true ∧ { v with banks := { v.banks with validated := false } }.running .swap = true ∧
      validationFailure bad = some ⟨.overlays, 0, none, .planMissing, 300⟩ := by
  decide +kernel

theorem witness_ValidationPassesExactlySoundReferences : validationFailure workedTables = none := by decide +kernel

/-- Tables with a failing reference of every order of R44, and those with the first few of them mended. -/
def dangling (styles : List (Nat × StyleEntry)) (matrix : List (Nat × MatrixCell)) (overlays : List (Nat × OverlayEntry))
    (steps : List PlanStep) : Tables where
  styles    := styles
  matrix    := matrix
  overlays  := overlays
  plans     := [(7, ⟨1, 0, 0, steps⟩)]
  schedules := [(3, ⟨850, 220, 2⟩)]
  curves    := []

/-- R44, R45: the first failure of each order, with what the report says of it: the row 64 of entry 2; the run to plan 513; plan 8,
at offset 1 of a cell whose run starts at plan 7; the plan of an overlay; steps 1 and 2 of plan 7; the curve of schedule 3. -/
theorem test_first_failures :
    let cell := [(5, MatrixCell.mk 7 2)]
    let overlay := [(9, OverlayEntry.mk 5 none 17 .append 300)]
    let steps := [PlanStep.call 8, .group 4 1]
    let first := fun styles matrix overlays steps => validationFailure (dangling styles matrix overlays steps)
    first [(1, ⟨10, 63⟩), (2, ⟨11, 64⟩)] cell overlay steps = some ⟨.styles, 2, none, .rowRange, 64⟩ ∧
      first [] [(4, ⟨511, 3⟩), (5, ⟨7, 2⟩)] overlay steps = some ⟨.matrix, 4, none, .planRange, 513⟩ ∧
      first [] cell overlay steps = some ⟨.matrix, 5, some 1, .planMissing, 8⟩ ∧
      first [] [] overlay steps = some ⟨.overlays, 9, none, .planMissing, 300⟩ ∧
      first [] [] [] steps = some ⟨.plans, 7, some 1, .planMissing, 8⟩ ∧
      first [] [] [] [.group 3 1, .group 4 1] = some ⟨.plans, 7, some 2, .scheduleMissing, 4⟩ ∧
      first [] [] [] [.group 3 1] = some ⟨.schedules, 3, none, .curveMissing, 2⟩ := by decide +kernel

/-- Canonical tables in which plan 7 fails at its first and its second step. -/
theorem witness_ValidationPassesExactlySoundReferences_fails :
    let t := dangling [] [] [] [.call 8, .group 4 1]
    t.wf = true ∧ ReferenceFails t ⟨.plans, 7, some 1, .planMissing, 8⟩ ∧
      ReferenceFails t ⟨.plans, 7, some 2, .scheduleMissing, 4⟩ :=
  ⟨by decide, .stepPlan (n := 0) (List.mem_singleton.2 rfl) rfl (by decide),
    .stepSchedule (n := 1) (List.mem_singleton.2 rfl) rfl (by decide)⟩

/-! ## Images -/

theorem witness_StoreImageEndWritesTheChecksumLast :
    (busyWith line .storeImage).running .storeImage = true ∧ 23 ≤ (List.replicate 23 (0 : Octet)).length := by
  decide +kernel

/-- A tick while a store of a header and a payload octet runs. -/
theorem witness_StoreImageEndWritesTheChecksumLast_running :
    let s := { busyWith line .storeImage with
      loader := { Loader.start .store with stored := List.replicate 24 (0 : Octet) } }
    s.pending = [] ∧ s.loader.activity = .store ∧ s.running .copyBank = false ∧ 23 ≤ s.loader.stored.length := by
  decide +kernel

/-- The payload of an image, octet by octet from R181: one station of one slot, its limits and modes, STATION scope, some
table records, and the adjustment octet 0. -/
def imagePayloadOf (records : List Octet) : List Octet :=
  [0x8F, 0x5A, 0, 100, 0, 7, 0, 9, 1, 1, 0x03, 0xE8, 0x0B, 0xB8, 0, 0, 0, 1, 1, 1, 0, 0, 0, 0, 0x07, 0xD0, 0x0B, 0xB8,
    0x07, 0x08] ++ records ++ [0]

/-- The image of that payload with some Overlay List records counted. -/
def imageOf (overlays : Octet) (records : List Octet) : List Octet :=
  let payload := imagePayloadOf records
  [0x5C, 0x41, 0x60, 0xA7, 1, 0, 0, 0, 0, 0, overlays, 0, 0, 0, 0, 0, 0, 0, 30] ++ Octets.nat4 payload.length ++
    Octets.be2 (octetSum payload) ++ payload

/-- The part during the power-up load with some flash contents. -/
def loading (flash : List Octet) : State := { State.reset with flash := flash }

/-- An overlay record whose plan, 300, no table holds. -/
def danglingOverlay : List Octet := [2, 0, 0, 5, 255, 17, 1, 1, 44]

/-- A power-up load of an image that passes, of one that fails validation, and of erased flash, which fails the checks. -/
theorem witness_PowerUpLoadEndsInOneOfThreeWays :
    State.reset.loader.activity = .powerUpLoad ∧ State.reset.banks.active = .a ∧
      ((loading (imageOf 0 [])).finishLoad true).loader.phase = .passed ∧
      validationFailure ((loading (imageOf 0 [])).finishLoad true).banks.tablesA = none ∧
      ((loading (imageOf 0 [])).finishLoad true).loader.config.isSome = true ∧
      ((loading (imageOf 1 danglingOverlay)).finishLoad true).loader.phase = .passed ∧
      (validationFailure ((loading (imageOf 1 danglingOverlay)).finishLoad true).banks.tablesA).isSome = true ∧
      (State.reset.finishLoad true).loader.phase = .failed := by decide +kernel

/-- R184: the power-up load of that image applies its shape, limits and modes. -/
theorem test_powerUpLoadEnd_applies :
    let t := after (exec (.powerUpLoadEnd true) (loading (imageOf 0 [])))
    t.filter.ownNode = 100 ∧ t.filter.controllerNode = some 7 ∧ t.filter.robotNodes[0] = some 1000 ∧
      t.tracker.stationCount = 1 ∧ (t.gun 0).ceiling = 1800 ∧ t.banks.validated = true := by decide +kernel

/-- A LOAD IMAGE that passes while LIVE, one that fails as the flash does not answer, and one that has made every read and
passed every check before its completion says that the flash did not answer (log entry 20). -/
theorem witness_LoadImageEndMarksTheBank :
    let s := { busyWith line .loadImage with loader := Loader.start .load, flash := imageOf 1 danglingOverlay }
    s.running .loadImage = true ∧ (s.finishLoad true).loader.phase = .passed ∧ s.agent.partState = .live ∧
      s.loader.phase ≠ .passed ∧ (s.finishLoad false).loader.phase ≠ .passed ∧
      (s.finishLoad true).running .loadImage = true ∧
      ((s.finishLoad true).finishLoad false).loader.phase = .passed := by decide +kernel

/-- A part in COMMISSIONING whose stations are all OFFLINE and empty, and one whose station 2 is HELD, the section held by
it, each with a LOAD IMAGE that passes; the image brings the STATION scope. -/
theorem witness_LoadImageEndMarksTheBank_commissioning :
    let r := { body 5500 .active [] with row := none, bodyHeld := true }
    let loaded := fun s : State => { s with
      agent := ⟨[], .commissioning, some ⟨.loadImage, 5, 0⟩⟩, loader := Loader.start .load
      flash := imageOf 1 danglingOverlay }
    let quiet := loaded { line with tracker := State.reset.tracker }
    let held := loaded { line2 .held [r] with holdScope := .wholeSection }
    quiet.running .loadImage = true ∧ (quiet.finishLoad true).loader.phase = .passed ∧
      quiet.agent.partState = .commissioning ∧ (quiet.finishLoad true).loader.config.isSome = true ∧
      (∀ st : StationId, (quiet.station st).state = .offline ∧ (quiet.station st).queue = []) ∧
      quiet.sectionHold = false ∧ held.running .loadImage = true ∧ (held.finishLoad true).loader.phase = .passed ∧
      (held.station 2).state ≠ .offline ∧ held.sectionHold = true ∧
      ((held.finishLoad true).loader.config.map fun c => ((held.finishLoad true).adjusted c false).sectionHold) =
        some false := by decide +kernel

/-- An image whose two records are the same overlay: the first is written, the second ends the load; and the units of a load
that passes. -/
theorem witness_LoadImageEndMarksTheBank_records :
    let twice := imageOf 2 (danglingOverlay ++ danglingOverlay)
    let first := (loadUnit twice)^[2] (Loader.start .load, Tables.empty)
    let second := loadUnit twice first
    first.1.phase = .records ∧
      (first.1.header.map fun h => decide (first.1.position + 1 < 25 + h.payloadLength)) = some true ∧
      flashRead twice first.1.position 9 = danglingOverlay ∧ second.1.phase = .records ∧
      second.1.seen = [(.overlays, 0)] ∧ second.1.position = first.1.position + 9 ∧
      flashRead twice second.1.position 9 = danglingOverlay ∧ (loadUnit twice second).1.phase = .failed ∧
      ((loadUnit (imageOf 1 danglingOverlay))^[5] (Loader.start .load, Tables.empty)).1.phase = .passed ∧
      5 < (6 : Octet).toNat ∧ TableId.overlays.inRange 128 = false ∧ readFields .curves [1] = none := by decide +kernel

/-- The other units: a header that is read and erased flash; a configuration part that applies, and one whose length is wrong; the
end one octet before the payload's, and records that run past it; a load that has passed. -/
theorem witness_LoadImageEndMarksTheBank_units :
    let flash := imageOf 0 []
    let x := fun n => ((loadUnit flash)^[n] (Loader.start .load, Tables.empty)).1
    let short := flash.set 18 29
    (x 0).phase = .header ∧ (readHeader (flashRead flash 0 25)).isSome = true ∧ readHeader (flashRead [] 0 25) = none ∧
      (x 1).phase = .config ∧
      ((readConfig (flashRead flash 25 30)).map fun c => c.1.shape.inRange && c.1.shape.distinct && c.2.isEmpty) = some true ∧
      ((readHeader (flashRead short 0 25)).map (·.configLength)) = some 29 ∧ readConfig (flashRead flash 25 29) = none ∧
      (x 2).phase = .records ∧ ((x 2).header.map fun h => decide ((x 2).position + 1 = 25 + h.payloadLength)) = some true ∧
      ((x 2).header.map fun h => decide (25 + h.payloadLength < (x 2).position + 2)) = some true ∧ (x 3).phase = .passed := by
  decide +kernel

/-- R181: what STORE IMAGE will write, octet by octet but for the adjustment octet: the part configured by the image above, with one
entry in each table. -/
theorem test_storeImage_octets :
    let s := after (exec (.powerUpLoadEnd true) (loading (imageOf 0 [])))
    let u := { s with banks := { s.banks with
      tablesA := ⟨[(5, ⟨3120, 12⟩)], [(400, ⟨210, 1⟩)], [(3, ⟨5, none, 17, .append, 240⟩)],
        [(225, ⟨17, 1000, 7000, [.group 4 8, .call 240]⟩)], [(4, ⟨1040, 260, 2⟩)], [(2, [⟨500, 0⟩, ⟨3000, 120⟩])]⟩ } }
    (after (exec .storeImage (asking u 0x52 []))).loader.stored.dropLast =
      [0x5C, 0x41, 0x60, 0xA7, 1, 0, 1, 0, 1, 0, 1, 0, 1, 0, 1, 0, 1, 0, 30, 0, 0, 0, 87] ++ (imagePayloadOf
        [0, 0, 5, 0x0C, 0x30, 12, 1, 0x01, 0x90, 0, 210, 1, 2, 0, 3, 5, 255, 17, 1, 0, 240, 3, 0, 225, 17, 0x03, 0xE8, 0x1B,
          0x58, 2, 0, 4, 8, 1, 0, 240, 4, 0, 4, 0x04, 0x10, 0x01, 0x04, 2, 5, 0, 2, 2, 0x01, 0xF4, 0, 0, 0x0B, 0xB8, 0,
          120]).dropLast := by decide +kernel

/-! ## Stations, guns and the part -/

/-- Limits at and beyond the bounds of R11, each mode, and the refusals. -/
theorem witness_SetStationMovesTheStation :
    let p : List Octet := [0, 1, 0, 0, 99]
    (asking line 0x20 p).executes (.setStation 0 1 0 99) ⟨7, 1, 0x20, p, false⟩ ∧ 3 < (4 : Octet).toNat ∧
      line.tracker.stationCount ≤ (3 : Octet).toNat ∧ (0 : Octet).toNat = (0 : StationId).val ∧
      (0 : StationId).val < line.tracker.stationCount ∧ ((asking line 0x20 p).station 0).queue = [] ∧
      (atWork.station 2).state = .dispatching := by decide +kernel

/-- A move into IDLE of a MANUAL station with a body in its queue; the same of a station at work, and without Dry in
COMMISSIONING, which are refused. -/
theorem witness_SetStationMovesTheStation_queued :
    let p : List Octet := [2, 1, 0, 0x75, 0x31]
    let q := asking (line2 .manual [body 1 .queued []]) 0x20 p
    let c := { q with agent := { q.agent with partState := .commissioning } }
    q.executes (.setStation 2 1 0 30001) ⟨7, 1, 0x20, p, false⟩ ∧ (2 : StationId).val < q.tracker.stationCount ∧
      (q.station 2).state = .manual ∧ (q.station 2).queue ≠ [] ∧ q.agent.partState = .live ∧
      c.executes (.setStation 2 1 0 30001) ⟨7, 1, 0x20, p, false⟩ ∧ c.agent.partState = .commissioning ∧
      (asking atWork 0x20 p).executes (.setStation 2 1 0 30001) ⟨7, 1, 0x20, p, false⟩ ∧
      (asking atWork 0x20 p |>.station 2).state = .dispatching := by decide +kernel

/-- The test of an IDLE station: a front record of unknown style, under HOLD and under PASS, and one of a known style; and what
keeps it from starting: a station not IDLE, an empty queue, a bank not validated, a Section Hold. -/
theorem witness_SetStationMovesTheStation_test :
    let s := fun r => line2 .idle [r, queued 2]
    let strange := { queued 1 with row := none }
    (s (queued 1)).queuedFresh ∧ (s strange).queuedFresh ∧ ((s strange).station 2).queue = [strange, queued 2] ∧
      ((s strange).station 2).state = .idle ∧ (s strange).banks.validated = true ∧ (s strange).sectionHold = false ∧
      (queued 1).state = .queued ∧ (queued 1).row = some 12 ∧ (s strange).mode 2 .unknownStyle = .hold ∧
      ((line.station 2).modes.set 8 .pass)[8] = .pass ∧
      (atWork.station 2).state ≠ .idle ∧ (line.station 2).queue.head? = none ∧
      { line with banks := { line.banks with validated := false } }.banks.validated = false ∧
      (sectionHeld [queued 1]).sectionHold = true := by
  refine ⟨by unfold State.queuedFresh; decide +kernel, by unfold State.queuedFresh; decide +kernel, ?_⟩
  decide +kernel

/-- R15, R18: a move into IDLE releases a front record of unknown style FAULTED under PASS, and starts the one behind it. -/
theorem test_head_starts_follow_a_release :
    let p : List Octet := [2, 1, 0, 0x0B, 0xB8]
    let x := { Station.reset with
      state := .manual, queue := [{ queued 1 with row := none }, queued 2], modes := Station.reset.modes.set 8 .pass }
    let s := { line with tracker := { line.tracker with stations := line.tracker.stations.set 2 x } }
    let t := after (exec (.setStation 2 1 0 3000) (asking s 0x20 p))
    (t.station 2).state = .dispatching ∧ (t.station 2).counters.releasedFaulted = 1 ∧
      (t.head? 2).map (·.bodyId) = some 2 ∧ t.ports.uplinkOwn.map (·.isReply) = [false, true] := by decide +kernel

/-- Nine pairs, the most there are; and lists that are refused: none, a kind twice, a mode its kind does not allow. -/
theorem witness_SetFaultModesWritesTheNamedModes :
    let pairs : List (FaultKind × FaultMode) := allKinds.map fun k => (k, .pass)
    let octets := pairs.map fun x => (BitVec.ofNat 8 x.1.number.val, BitVec.ofNat 8 x.2.code)
    let p : List Octet := [2, 9] ++ octets.flatMap fun x => [x.1, x.2]
    (asking line 0x21 p).executes (.setFaultModes 2 octets) ⟨7, 1, 0x21, p, false⟩ ∧ pairs.length = 9 ∧
      (∀ x ∈ pairs, x.1.allows x.2 = true) ∧ (pairs.map (·.1)).Nodup ∧
      (asking line 0x21 [2, 0]).executes (.setFaultModes 2 []) ⟨7, 1, 0x21, [2, 0], false⟩ ∧
      ¬([((0 : Octet), (0 : Octet)), (0, 1)].map (·.1)).Nodup ∧ FaultKind.unknownStyle.allows .off = false := by
  decide +kernel

theorem witness_SetHoldScopeWritesTheScope :
    (asking line 0x22 [2]).executes (.setHoldScope 2) ⟨7, 1, 0x22, [2], false⟩ ∧ 1 < (2 : Octet).toNat ∧
      (asking line 0x22 [0]).executes (.setHoldScope 0) ⟨7, 1, 0x22, [0], false⟩ ∧
      (asking line 0x22 [0]).sectionHold = false ∧
      (asking line 0x22 [1]).executes (.setHoldScope 1) ⟨7, 1, 0x22, [1], false⟩ ∧
      (asking { line2 .held [head] with holdScope := .wholeSection } 0x22 [0]).executes (.setHoldScope 0)
        ⟨7, 1, 0x22, [0], false⟩ ∧
      (asking { line2 .held [head] with holdScope := .wholeSection } 0x22 [0]).sectionHold = true := by decide +kernel

/-- A body hold for SKIP and ABORT, a held LOADED entry for RETRY, and the refusals. -/
theorem witness_ClearStationGivesUpOrRetriesTheHead :
    let r := { body 5500 .active [] with row := none, bodyHeld := true }
    let x := { entry 0 210 11 12 .loaded 501 with held := true }
    let h := body 8410 .active [x]
    let s := asking (line2 .held [r]) 0x23 [2, 1]
    let u := asking (line2 .held [h, body 8411 .queued []]) 0x23 [2, 0]
    s.executes (.clearStation 2 1) ⟨7, 1, 0x23, [2, 1], false⟩ ∧ (2 : Octet).toNat = (2 : StationId).val ∧
      (2 : StationId).val < s.tracker.stationCount ∧ (2 : Octet).toNat ≤ 2 ∧ (s.station 2).state = .held ∧
      (s.station 2).queue = [r] ∧ r.state = .active ∧ r.bodyHeld = true ∧ r.entries = [] ∧ s.holdScope = .station ∧
      s.unmirrored 2 .release ∧ u.executes (.clearStation 2 0) ⟨7, 1, 0x23, [2, 0], false⟩ ∧
      (u.station 2).state = .held ∧ (u.station 2).queue = [h, body 8411 .queued []] ∧ h.state = .active ∧
      h.bodyHeld = false ∧ h.entries = [x] ∧ x.state = .loaded ∧ x.held = true ∧ u.holdScope = .station ∧
      (line.station 2).state ≠ .held ∧ 3 < (4 : Octet).toNat ∧ 2 < (3 : Octet).toNat := by decide +kernel

/-- Station 2 HELD with a head and a body behind it, and a CLEAR STATION with an option waiting. -/
def clearing (h : BodyRecord) (option : Octet) : State :=
  asking { line2 .held [h, body 8411 .queued []] with tags := atWork.tags } 0x23 [2, option]

/-- RETRY of a WAITING entry held for an overrun, which resolves anew; of a head of Unknown Style whose style is found; SKIP
and RETRY of a FINISHED entry, and ABORT of a head of two entries; with and without a Section Hold. -/
theorem witness_ClearStationGivesUpOrRetriesTheHead_clauses :
    let x := { entry 0 210 11 12 .waiting 0 with held := true, tag := none }
    let r := body 8410 .active [x]
    let z := { body 5500 .active [] with row := none, bodyHeld := true }
    let f := { entry 0 210 11 12 .finished 501 with held := true }
    let two := body 8410 .active [{ entry 0 210 11 12 .loaded 501 with held := true }, entry 1 225 17 14 .selected 77]
    let found := fun s : State => resolve (s.banks.tables .a) (s.gun 16) (s.mode 2 .wearOverrun != .off) 12 0 32 16
    (clearing r 0).executes (.clearStation 2 0) ⟨7, 1, 0x23, [2, 0], false⟩ ∧
      ((clearing r 0).station 2).queue = [r, body 8411 .queued []] ∧
      r.row = some 12 ∧ slotOf 2 x.position = 16 ∧ (found (clearing r 0)).map (·.fault) = some none ∧
      (clearing z 0).executes (.clearStation 2 0) ⟨7, 1, 0x23, [2, 0], false⟩ ∧
      (workedTables.styleRow? z.style) = some 12 ∧
      ((clearing z 0).resolutions 2 .a 12 0 32).map (·.2.fault) = [none, none, none] ∧
      (clearing (body 8410 .active [f]) 1).executes (.clearStation 2 1) ⟨7, 1, 0x23, [2, 1], false⟩ ∧ f.held = true ∧
      (body 8411 .queued []).state = .queued ∧ (clearing two 2).unmirrored 2 .release ∧
      (clearing two 2).executes (.clearStation 2 2) ⟨7, 1, 0x23, [2, 2], false⟩ ∧
      ((((two.entries.map fun x => slotOf 2 x.position).foldl State.givenUp (clearing two 2)).station 2).queue.map (·.state)) =
        [.active, .queued] ∧
      (clearing two 2).sectionHold = false ∧ { clearing two 2 with holdScope := .wholeSection }.sectionHold = true := by
  decide +kernel

/-- A head of Unknown Style whose style stays unknown, under HOLD and under PASS. -/
theorem witness_ClearStationGivesUpOrRetriesTheHead_unknownStyle :
    let z := { body 5500 .active [] with style := 4100, row := none, bodyHeld := true }
    let s := clearing z 0
    let x := { s.station 2 with modes := Station.reset.modes.set FaultKind.unknownStyle.number .pass }
    let pass := { s with tracker := { s.tracker with stations := s.tracker.stations.set 2 x } }
    s.executes (.clearStation 2 0) ⟨7, 1, 0x23, [2, 0], false⟩ ∧ workedTables.styleRow? z.style = none ∧
      s.mode 2 .unknownStyle = .hold ∧ pass.executes (.clearStation 2 0) ⟨7, 1, 0x23, [2, 0], false⟩ ∧
      pass.mode 2 .unknownStyle = .pass ∧ (body 8411 .queued []).state = .queued := by decide +kernel

/-- A head of Unknown Style whose style some tables now hold, beside a QUEUED record, with some guns worn out and a mode for Wear
Overrun. -/
def foundAgain (worn : List SlotId) (m : FaultMode) (tables : Tables) : State :=
  let s := clearing { body 5500 .active [] with row := none, bodyHeld := true } 0
  { s with
    banks := { s.banks with tablesA := tables }
    guns := Vector.ofFn fun g => if g ∈ worn then { line.gun g with wear := 3000 } else line.gun g
    tracker := { s.tracker with stations := s.tracker.stations.set 2 { s.station 2 with
      modes := Station.reset.modes.set FaultKind.wearOverrun.number m } } }

/-- Slot 17 worn out under HOLD; every slot worn out under PASS; and no slot with a plan. -/
theorem witness_ClearStationGivesUpOrRetriesTheHead_foundWithFaults :
    let none12 := { workedTables with matrix := [], overlays := [] }
    let run := fun s => (s.resolutions 2 .a 12 0 32).map fun x => (x.2.fault, (s.startedEntry x.1 x.2).state)
    (foundAgain [17] .hold workedTables).executes (.clearStation 2 0) ⟨7, 1, 0x23, [2, 0], false⟩ ∧
      none12.styleRow? 3120 = some 12 ∧
      run (foundAgain [17] .hold workedTables) =
        [(none, .selected), (some .wearOverrun, .waiting), (none, .selected)] ∧
      run (foundAgain [16, 17, 18] .pass workedTables) = List.replicate 3 (some .wearOverrun, .faulted) ∧
      run (foundAgain [] .hold none12) = [] ∧ (body 8411 .queued []).state = .queued := by decide +kernel

/-- R138: RETRY of that head leaves it HELD, or releases it FAULTED, or CLEAN, the next head started or released likewise. -/
theorem test_retry_of_a_found_style :
    let none12 := { workedTables with matrix := [], overlays := [] }
    let left := fun s =>
      let x := (after (exec (.clearStation 2 0) s)).station 2
      (x.state, x.queue.map (·.bodyId), x.counters.releasedClean, x.counters.releasedFaulted)
    left (foundAgain [17] .hold workedTables) = (.held, [5500, 8411], 0, 0) ∧
      left (foundAgain [16, 17, 18] .pass workedTables) = (.idle, [], 0, 2) ∧
      left (foundAgain [] .hold none12) = (.idle, [], 2, 0) := by decide +kernel

/-- Heads of two entries: one still at work after SKIP, one whose entries have then ended, one of them FAULTED and held
before; and a RETRY that finds an overrun. -/
theorem witness_ClearStationGivesUpOrRetriesTheHead_entries :
    let kept := fun (x : SlotEntry) => { x with held := true }
    let left := fun (act : State → SlotId → State) (h : BodyRecord) (s : State) =>
      (((h.entries.map fun x => slotOf 2 x.position).foldl act s).station 2).queue.map fun r =>
        (r.state, r.entries.map fun y => (y.state, y.held))
    let one := body 8410 .active [kept (entry 0 210 11 12 .loaded 501), entry 1 225 17 14 .selected 77]
    let all := body 8410 .active [kept (entry 0 210 11 12 .faulted 501), kept (entry 1 225 17 14 .selected 77)]
    let worn := body 8410 .active [kept (entry 0 210 11 12 .waiting 0)]
    let overrun := { clearing worn 0 with guns := line.guns.set 16 { line.gun 16 with wear := 3000 } }
    (clearing one 1).executes (.clearStation 2 1) ⟨7, 1, 0x23, [2, 1], false⟩ ∧
      left State.skipped one (clearing one 1) =
        [(.active, [(.faulted, false), (.selected, false)]), (.queued, [])] ∧
      left State.skipped all (clearing all 1) =
        [(.active, [(.faulted, false), (.faulted, false)]), (.queued, [])] ∧
      overrun.executes (.clearStation 2 0) ⟨7, 1, 0x23, [2, 0], false⟩ ∧
      left State.retried worn overrun = [(.active, [(.waiting, true)]), (.queued, [])] := by decide +kernel

/-- A QUEUED record between two others, by the telegram and by the request; and each refusal. -/
theorem witness_WithdrawalReleasesAQueuedBodyAborted :
    let s := line2 .dispatching [head, body 8411 .queued [], body 8412 .queued []]
    let p : List Octet := [0, 0, 0x20, 0xDB, 2]
    s.ports.uplinkUp = true ∧ (7 : Node) ≠ s.filter.ownNode ∧ s.filter.controllerNode = some 7 ∧
      s.filter.controllerNode ≠ some 55 ∧ s.filter.trackerNode ≠ some 55 ∧ 3 < (4 : Octet).toNat ∧
      (2 : StationId).val < s.tracker.stationCount ∧ (∀ r ∈ (s.station 2).queue, r.bodyId ≠ 5) ∧
      (s.station 2).queue = [head] ++ body 8411 .queued [] :: [body 8412 .queued []] ∧
      (∀ y ∈ [head] ++ [body 8412 .queued []], y.bodyId ≠ 8411) ∧ (body 8411 .queued []).state = .queued ∧
      s.unmirrored 2 .release ∧ (asking s 0x24 p).executes (.withdrawBody 8411 2) ⟨7, 1, 0x24, p, false⟩ := by
  decide +kernel

/-- A head of two entries at work, with a body behind it, withdrawn by the telegram and by the request. -/
theorem witness_WithdrawalReleasesAQueuedBodyAborted_head :
    let s := { line2 .held [head, body 8411 .queued []] with tags := atWork.tags }
    let p : List Octet := [0, 0, 0x20, 0xDA, 2]
    let u := (head.entries.map fun x => slotOf 2 x.position).foldl State.givenUp s
    s.filter.controllerNode = some 7 ∧ (s.station 2).queue = [head, body 8411 .queued []] ∧ head.bodyId = 8410 ∧
      head.state = .active ∧ s.unmirrored 2 .release ∧
      (u.station 2).queue.map (fun r => (r.state, r.entries.map (·.state))) =
        [(.active, [.cancelled, .cancelled]), (.queued, [])] ∧
      (asking s 0x24 p).executes (.withdrawBody 8410 2) ⟨7, 1, 0x24, p, false⟩ ∧ s.sectionHold = false ∧
      { s with holdScope := .wholeSection }.sectionHold = true := by decide +kernel

theorem witness_SetGunStoresClampedLimits :
    let p : List Octet := [31, 0, 99, 0, 50, 0x07, 0x09]
    (asking line 0x30 p).executes (.setGun (BitVec.ofNat 8 (31 : SlotId).val) 99 50 1801) ⟨7, 1, 0x30, p, false⟩ ∧
      (asking line 0x30 p).gunBusy 31 = false := by decide +kernel

theorem witness_WearRequestsWriteTheWear :
    (asking line 0x31 [31, 0x07, 0xCF]).executes (.setWear (BitVec.ofNat 8 (31 : SlotId).val) 1999)
        ⟨7, 1, 0x31, [31, 0x07, 0xCF], false⟩ ∧
      (asking line 0x31 [31, 0x07, 0xCF]).gunBusy 31 = false ∧
      (asking line 0x32 [31]).executes (.resetWear (BitVec.ofNat 8 (31 : SlotId).val)) ⟨7, 1, 0x32, [31], false⟩ ∧
      (line.gun 31).capChanges ≤ 65535 := by decide +kernel

/-- Slot 32, and slots 16 and 17, whose entries are LOADED and SELECTED. -/
theorem witness_GunRequestsAreRefusedWhileSelected :
    31 < (32 : Octet).toNat ∧
      (asking line 0x30 [32, 0, 99, 0, 50, 0, 20]).executes (.setGun 32 99 50 20)
        ⟨7, 1, 0x30, [32, 0, 99, 0, 50, 0, 20], false⟩ ∧
      (asking atWork 0x31 [16, 0, 5]).executes (.setWear 16 5) ⟨7, 1, 0x31, [16, 0, 5], false⟩ ∧
      (asking atWork 0x32 [17]).executes (.resetWear 17) ⟨7, 1, 0x32, [17], false⟩ ∧
      atWork.entry? 16 = some (entry 0 210 11 12 .loaded 501) ∧
      atWork.entry? 17 = some (entry 1 225 17 14 .selected 77) := by decide +kernel

/-- Masks below 2^29, and 2^29 itself. -/
theorem witness_EventRequestsClearAndEnable :
    (asking line 0x40 [0x1F, 255, 255, 255]).executes (.clearEvents 0x1FFFFFFF)
        ⟨7, 1, 0x40, [0x1F, 255, 255, 255], false⟩ ∧
      (asking line 0x41 [0x20, 0, 0, 0]).executes (.setEventEnable 0x20000000) ⟨7, 1, 0x41, [0x20, 0, 0, 0], false⟩ ∧
      (0x1FFFFFFF : BitVec 32).toNat < 2 ^ 29 ∧ 2 ^ 29 ≤ (0x20000000 : BitVec 32).toNat := by decide +kernel

theorem witness_SetMirrorArmsAndDisarms :
    let p : List Octet := [7, 1, 2, 0x0F, 0x01, 0x2C, 0, 255]
    (asking line 0x42 p).executes (.setMirror (BitVec.ofNat 8 (7 : ChannelId).val) 1 2 0x0F 300 0 255)
        ⟨7, 1, 0x42, p, false⟩ ∧
      (asking line 0x42 [7, 0]).executes (.setMirror (BitVec.ofNat 8 (7 : ChannelId).val) 0 0 0 0 0 0)
        ⟨7, 1, 0x42, [7, 0], false⟩ ∧
      (2 : Octet).toNat = 2 ∧ (0x0F : Octet).toNat % 16 ≠ 0 ∧ (300 : Node) ≠ line.filter.ownNode ∧
      (255 : Octet) ≠ 0 := by decide +kernel

/-- The refusals of R177: channel 8, option 2; and for ARM trigger 3, a station mask without stations 0 to 3, a destination of
0, 65535 or the own node, a count of 0, count form 2. -/
theorem witness_SetMirrorArmsAndDisarms_refused :
    let p : List Octet := [8, 1, 2, 0xF0, 0, 0, 0, 0]
    (asking line 0x42 p).executes (.setMirror 8 1 2 0xF0 0 0 0) ⟨7, 1, 0x42, p, false⟩ ∧ 7 < (8 : Octet).toNat ∧
      1 < (2 : Octet).toNat ∧ 2 < (3 : Octet).toNat ∧ (0xF0 : Octet).toNat % 16 = 0 ∧
      (100 : Node) = line.filter.ownNode ∧ 1 < (2 : Octet).toNat := by decide +kernel

/-- R178: a DONE that leaves a spot missing and releases its head gives SLOT DONE, SLOT FAULT and RELEASE records in that order,
each to the channels that match it in ascending number. -/
theorem test_records_reach_channels_in_order :
    let armed := fun (t : Trigger) => (⟨t, 4, some 300, none, 0, true, 0⟩ : Channel)
    let s := { line2 .dispatching [body 7701 .active [entry 0 210 11 12 .loaded 501]] with
      lineTime := 105300
      tags := atWork.tags
      channels := (((line.channels.set 1 (armed .release)).set 3 (armed .slotDone)).set 5 (armed .release)).set 2
        (armed .slotFault) }
    (after (exec (.done 1016 501 11 1 0) s)).ports.uplinkOwn.map (fun x =>
      match x with | .copy _ c _ _ content => (c.val, content.trigger) | _ => (9, .release)) =
      [(3, .slotDone), (2, .slotFault), (9, .release), (1, .release), (5, .release)] := by decide +kernel

/-- A channel armed for two more COPYs, with 10 and with 11 COPYs waiting. -/
theorem witness_MirrorPlacesOrLosesItsCopy :
    let c : Channel := ⟨.release, 4, some 300, some 5, 1, true, 0⟩
    let copies := fun n => List.replicate n (UplinkTelegram.copy ⟨300, 100, 0x8F5A⟩ 0 2 5 (.release head))
    let s := { sending (copies 10) with channels := line.channels.set 0 c }
    s.channels[0] = c ∧ c.armed = true ∧ c.trigger = (CopyContent.release head).trigger ∧
      c.stationMask.getLsbD 2 = true ∧ c.count = some 5 ∧ 1 ≤ c.remaining ∧ s.copiesWaiting = 10 ∧
      (sending (copies 11)).copiesWaiting = 11 ∧
      ({ c with count := none, remaining := 0 } : Channel).count = none := by decide +kernel

/-- The counts of the next witness pass check 2 of CONFIGURE. -/
theorem witness_ConfigureWritesTheShape_counts :
    ¬((1 : Octet).toNat < 1 ∨ 4 < (1 : Octet).toNat) ∧ ([1] : List Octet).length = (1 : Octet).toNat ∧
      (∀ y ∈ ([1] : List Octet), ¬(y.toNat < 1 ∨ 8 < y.toNat)) ∧
      ([1000] : List Node).length = (([1] : List Octet).map BitVec.toNat).sum := by decide +kernel

/-- Its Protocol Type and nodes pass checks 2 and 3. -/
theorem witness_ConfigureWritesTheShape_nodes :
    ¬(0x8F5A : BitVec 16).toNat < 0x0600 ∧ (∀ y ∈ ([100, 7, 1000] : List Node), ¬(y = 0 ∨ y = 65535)) ∧
      ([100, 7, 1000] : List Node).Nodup :=
  ⟨by decide, by simp, by decide⟩

/-- A slot count of 9, a Protocol Type of 0x05FF and two equal nodes do not. -/
theorem witness_ConfigureWritesTheShape_unsound :
    8 < (9 : Octet).toNat ∧ (0x05FF : BitVec 16).toNat < 0x0600 ∧ ¬([100, 7, 7] : List Node).Nodup := by decide +kernel

/-- CONFIGURE while LIVE, while COMMISSIONING, with a body waiting, during a LOAD IMAGE, and accepted. -/
theorem witness_ConfigureWritesTheShape :
    let p : List Octet := [0x8F, 0x5A, 0, 100, 0, 7, 0, 0, 1, 1, 0x03, 0xE8]
    let s := { asking line 0x50 p with agent := ⟨[⟨7, 1, 0x50, p, false⟩], .commissioning, none⟩ }
    let quiet := { s with tracker := State.reset.tracker }
    s.executes (.configure 0x8F5A 100 7 0 1 [1] [1000]) ⟨7, 1, 0x50, p, false⟩ ∧ line.agent.partState = .live ∧
      s.agent.partState = .commissioning ∧ (s.station 2).state ≠ .offline ∧
      (∀ st : StationId, (quiet.station st).state = .offline ∧ (quiet.station st).queue = []) ∧
      quiet.running .loadImage = false ∧ (busyWith quiet .loadImage).running .loadImage = true := by decide +kernel

theorem witness_GoLiveSetsThePartLive :
    (asking line 0x51 []).executes .goLive ⟨7, 1, 0x51, [], false⟩ := by decide +kernel

end Sys2Proof.Tests
end

section
/-! Sound stations (R4, R7, R125). A queue is sound by what its records are and which state each is in; a station agrees with its
head by the held marks the head carries. Work on the entries of a head keeps the first; what settles, releases or faults a head
restores the second. -/

namespace Sys2Proof.Machine

/-! ## A queue by its keys, a station by its head -/

/-- What the soundness of a queue reads of its records. -/
def Station.keys (x : Station) : List (BodyId × RecordState) := x.queue.map fun r => (r.bodyId, r.state)

/-- The part of a station's soundness that its queue alone decides (R4, R7). -/
def Station.queueSound (x : Station) : Prop :=
  x.queue.length ≤ 4 ∧ (x.queue.map (·.bodyId)).Nodup ∧ (∀ r ∈ x.queue.tail, r.state = .queued) ∧
    ∀ r, x.queue.head? = some r → r.state = .queued ∨ r.state = .active

/-- The part of a station's soundness that relates its state to its head (R4, R125). -/
def Station.stateSound (x : Station) : Prop :=
  ((x.state = .dispatching ∨ x.state = .held) ↔ x.head?.isSome = true) ∧
    (x.state = .held ↔ ∃ r, x.head? = some r ∧ r.anyHeld = true)

theorem Station.sound_iff (x : Station) : x.sound ↔ x.queueSound ∧ x.stateSound := by
  simp only [Station.sound, Station.queueSound, Station.stateSound, and_assoc]

theorem Station.stateSound_iff_of_head {x : Station} {r : BodyRecord} (h : x.head? = some r) :
    x.stateSound ↔ x.state = if r.anyHeld = true then .held else .dispatching := by
  simp only [Station.stateSound, h, Option.isSome_some, iff_true, Option.some.injEq, exists_eq_left']
  cases x.state <;> cases r.anyHeld <;> simp

theorem Station.stateSound_iff_of_no_head {x : Station} (h : x.head? = none) :
    x.stateSound ↔ x.state ≠ .dispatching ∧ x.state ≠ .held := by
  simp [Station.stateSound, h]

theorem Station.queueSound_iff_keys (x : Station) : x.queueSound ↔
    x.keys.length ≤ 4 ∧ (x.keys.map (·.1)).Nodup ∧ (∀ k ∈ x.keys.tail, k.2 = .queued) ∧
      ∀ k, x.keys.head? = some k → k.2 = .queued ∨ k.2 = .active := by
  simp [Station.queueSound, Station.keys, Function.comp_def, ← List.map_tail]

theorem Station.queueSound_of_keys {x y : Station} (h : y.keys = x.keys) (hx : x.queueSound) : y.queueSound := by
  rw [Station.queueSound_iff_keys] at hx ⊢
  rwa [h]

theorem Station.isSome_head?_eq (x : Station) : x.head?.isSome = x.keys.head?.any fun k => k.2 == .active := by
  unfold Station.head? Station.keys
  cases x.queue with
  | nil => rfl
  | cons r rest => by_cases h : r.state = .active <;> simp [h]

theorem Station.isSome_head?_of_keys {x y : Station} (h : y.keys = x.keys) : y.head?.isSome = x.head?.isSome := by
  rw [Station.isSome_head?_eq, Station.isSome_head?_eq, h]

/-- Behind a head no record has started. -/
theorem Station.head?_tail_of_queueSound {x y : Station} (h : x.queueSound) (hy : y.queue = x.queue.tail) :
    y.head? = none := by
  obtain ⟨-, -, ht, -⟩ := h
  unfold Station.head?
  rw [hy]
  split
  · next r rest hq =>
    have := ht r (by rw [hq]; exact List.mem_cons_self)
    rw [if_neg (by rw [this]; decide)]
  · rfl

theorem Station.queueSound_tail {x y : Station} (h : x.queueSound) (hy : y.queue = x.queue.tail) : y.queueSound := by
  obtain ⟨hl, hn, ht, -⟩ := h
  unfold Station.queueSound
  rw [hy]
  refine ⟨by rw [List.length_tail]; omega, ?_, fun r hr => ht r (List.mem_of_mem_tail hr), fun r hr => ?_⟩
  · exact hn.sublist ((List.tail_sublist _).map _)
  · exact .inl (ht r (List.mem_of_mem_head? hr))

/-- The keys of a station whose head is changed in neither Body Id nor state. -/
theorem Station.keys_modifyHead (x : Station) {f : BodyRecord → BodyRecord}
    (hf : ∀ r, (f r).bodyId = r.bodyId ∧ (f r).state = r.state) : (x.modifyHead f).keys = x.keys := by
  unfold Station.modifyHead Station.keys
  split
  · next r rest hq =>
    split
    · simp [hq, hf r]
    · rfl
  · rfl

theorem Station.mem_queue_of_head? {x : Station} {r : BodyRecord} (h : x.head? = some r) : r ∈ x.queue := by
  obtain ⟨-, rest, hq⟩ := Station.head?_eq_some.1 h
  rw [hq]
  exact List.mem_cons_self

/-- In a sound queue the record that is ACTIVE is the head. -/
theorem Station.head?_of_active {x : Station} (h : x.queueSound) {r : BodyRecord} (hr : r ∈ x.queue)
    (ha : r.state = .active) : x.head? = some r := by
  obtain ⟨-, -, ht, -⟩ := h
  cases hq : x.queue with
  | nil => rw [hq] at hr; cases hr
  | cons y rest =>
    rw [hq] at hr ht
    rcases List.mem_cons.1 hr with rfl | hr
    · exact Station.head?_eq_some.2 ⟨ha, rest, hq⟩
    · rw [ht r hr] at ha
      cases ha

/-! ## The stations of a state after a write -/

theorem State.stationsSound_of_station {s t : State} {st : StationId} (h : s.stationsSound)
    (ho : ∀ st', st' ≠ st → t.station st' = s.station st') (hst : (t.station st).sound) : t.stationsSound := by
  intro st'
  by_cases e : st' = st
  · rw [e]; exact hst
  · rw [ho st' e]; exact h st'

theorem State.stationsSound_congr {s t : State} (h : t.tracker.stations = s.tracker.stations) (hs : s.stationsSound) :
    t.stationsSound := fun st => by
  rw [State.station_congr h]
  exact hs st

@[simp] theorem State.mirror_tracker (s : State) (st : StationId) (c : CopyContent) : (s.mirror st c).tracker = s.tracker := by
  rw [State.mirror_eq]
  simp

@[simp] theorem State.mirrorFault_tracker (s : State) (g : SlotId) (k : FaultKind) :
    (s.mirrorFault g k).tracker = s.tracker := by
  rw [State.mirrorFault_eq]
  simp

@[simp] theorem State.mirrorDone_tracker (s : State) (g : SlotId) : (s.mirrorDone g).tracker = s.tracker := by
  rw [State.mirrorDone_eq]
  simp

@[simp] theorem State.cancelSlot_tracker (s : State) (g : SlotId) : (s.cancelSlot g).tracker = s.tracker := by
  unfold State.cancelSlot
  simp only
  split
  · rfl
  · split <;> rfl

/-! ## Work on the entries of a head -/

/-- What leaves every other station as it was, and of one station the state, the Body Ids and the record states. -/
structure HeadWork (st : StationId) (s t : State) : Prop where
  others : ∀ st', st' ≠ st → t.station st' = s.station st'
  state  : (t.station st).state = (s.station st).state
  keys   : (t.station st).keys = (s.station st).keys

namespace HeadWork

variable {st : StationId}

theorem of_stations {s t : State} (h : t.tracker.stations = s.tracker.stations) : HeadWork st s t := by
  have hst := State.station_congr h
  exact ⟨fun st' _ => hst st', by rw [hst], by rw [hst]⟩

theorem refl (s : State) : HeadWork st s s := of_stations rfl

/-- Two operations one after the other, the later one first. -/
theorem after {s t u : State} (k : HeadWork st t u) (h : HeadWork st s t) : HeadWork st s u :=
  ⟨fun st' e => (k.others st' e).trans (h.others st' e), k.state.trans h.state, k.keys.trans h.keys⟩

theorem foldl {α : Type} {f : State → α → State} (l : List α) (h : ∀ s, ∀ a ∈ l, HeadWork st s (f s a)) (s : State) :
    HeadWork st s (l.foldl f s) := by
  induction l generalizing s with
  | nil => exact refl s
  | cons a rest ih =>
    exact after (ih (fun s b hb => h s b (List.mem_cons_of_mem _ hb)) _) (h s a List.mem_cons_self)

theorem setStation (s : State) {x : Station} (h : x.state = (s.station st).state) (hk : x.keys = (s.station st).keys) :
    HeadWork st s (s.setStation st x) :=
  ⟨fun _ e => State.station_setStation_ne _ _ e, by rw [State.station_setStation_self, h],
    by rw [State.station_setStation_self, hk]⟩

theorem modifyHead (s : State) {f : BodyRecord → BodyRecord} (hf : ∀ r, (f r).bodyId = r.bodyId ∧ (f r).state = r.state) :
    HeadWork st s (s.modifyHead st f) :=
  setStation s (Station.modifyHead_state _ _) (Station.keys_modifyHead _ hf)

theorem modifyEntry (s : State) (g : SlotId) (f : SlotEntry → SlotEntry) : HeadWork (stationOf g) s (s.modifyEntry g f) :=
  modifyHead s fun _ => ⟨rfl, rfl⟩

theorem addEntry (s : State) (g : SlotId) (e : SlotEntry) : HeadWork (stationOf g) s (s.addEntry g e) :=
  modifyHead s fun _ => ⟨rfl, rfl⟩

theorem setFlag (s : State) (f : EventFlag) : HeadWork st s (s.setFlag f) := of_stations rfl

theorem setFlagIf (s : State) (c : Bool) (f : EventFlag) : HeadWork st s (s.setFlagIf c f) := by
  cases c
  · exact refl s
  · exact setFlag s f

theorem mirrorFault (s : State) (g : SlotId) (k : FaultKind) : HeadWork st s (s.mirrorFault g k) :=
  of_stations (by rw [State.mirrorFault_tracker])

theorem cancelSlot (s : State) (g : SlotId) : HeadWork st s (s.cancelSlot g) :=
  of_stations (by rw [State.cancelSlot_tracker])

theorem afterResolution (s : State) (g : SlotId) (x : Resolution) : HeadWork st s (s.afterResolution g x) :=
  of_stations (by rw [State.afterResolution_eq, State.resolvedAt_tracker])

theorem sendSelect (s : State) (g : SlotId) : HeadWork (stationOf g) s (s.sendSelect g) := by
  unfold State.sendSelect
  split
  · exact after (modifyEntry _ _ _) (of_stations rfl)
  · exact refl s

theorem reselect (s : State) (g : SlotId) : HeadWork (stationOf g) s (s.reselect g) :=
  after (modifyEntry _ _ _) (after (sendSelect _ _) (of_stations rfl))

theorem startSlot (s : State) (g : SlotId) : HeadWork (stationOf g) s (s.startSlot g) := by
  unfold State.startSlot
  split
  · exact refl s
  · simp only
    split
    · exact after (sendSelect _ _) (after (addEntry _ _ _) (afterResolution _ _ _))
    · split
      · exact after (mirrorFault _ _ _) (after (addEntry _ _ _) (afterResolution _ _ _))
      · exact after (sendSelect _ _) (after (mirrorFault _ _ _)
          (after (setFlag _ _) (after (addEntry _ _ _) (afterResolution _ _ _))))
      · exact after (mirrorFault _ _ _) (after (setFlag _ _) (after (addEntry _ _ _) (afterResolution _ _ _)))
      · exact after (mirrorFault _ _ _) (after (setFlag _ _) (after (addEntry _ _ _) (afterResolution _ _ _)))

theorem withdrawEntry (s : State) (g : SlotId) : HeadWork (stationOf g) s (s.withdrawEntry g) := by
  unfold State.withdrawEntry
  split
  · exact refl s
  · split
    · exact modifyEntry _ _ _
    · exact after (modifyEntry _ _ _) (cancelSlot _ _)
    · exact after (modifyEntry _ _ _) (cancelSlot _ _)
    · exact after (setFlagIf _ _ _) (modifyEntry _ _ _)
    · exact modifyEntry _ _ _
    · exact modifyEntry _ _ _

theorem skipEntry (s : State) (g : SlotId) : HeadWork (stationOf g) s (s.skipEntry g) := by
  unfold State.skipEntry
  split
  · exact refl s
  · split
    · exact refl s
    · split
      · exact modifyEntry _ _ _
      · exact modifyEntry _ _ _
      · exact modifyEntry _ _ _
      · exact after (modifyEntry _ _ _) (cancelSlot _ _)
      · exact after (modifyEntry _ _ _) (cancelSlot _ _)
      · exact modifyEntry _ _ _

theorem cancelIfSelected (s : State) (g : SlotId) (e : SlotEntry) : HeadWork st s (s.cancelIfSelected g e) := by
  unfold State.cancelIfSelected
  split
  · exact cancelSlot _ _
  · exact refl s

theorem retrySelection (s : State) (g : SlotId) (e : SlotEntry) : HeadWork (stationOf g) s (s.retrySelection g e) := by
  unfold State.retrySelection
  split
  · exact refl s
  · simp only
    have again : ∀ x, HeadWork (stationOf g) s ((s.afterResolution g x).modifyEntry g fun e => e.reresolved x) :=
      fun x => after (modifyEntry _ _ _) (afterResolution _ _ _)
    split
    · exact after (reselect _ _) (after (setFlag _ _) (after (modifyEntry _ _ _) (again _)))
    · split
      · exact after (reselect _ _) (after (mirrorFault _ _ _) (after (setFlag _ _) (after (modifyEntry _ _ _) (again _))))
      · exact after (mirrorFault _ _ _) (after (modifyEntry _ _ _) (after (cancelIfSelected _ _ _) (again _)))
      · exact after (mirrorFault _ _ _) (after (setFlag _ _)
          (after (modifyEntry _ _ _) (after (cancelIfSelected _ _ _) (again _))))
      · exact after (mirrorFault _ _ _) (after (setFlag _ _)
          (after (modifyEntry _ _ _) (after (cancelIfSelected _ _ _) (again _))))

theorem retryEntry (s : State) (g : SlotId) : HeadWork (stationOf g) s (s.retryEntry g) := by
  unfold State.retryEntry
  split
  · exact refl s
  · split
    · exact refl s
    · split
      · exact retrySelection _ _ _
      · exact retrySelection _ _ _
      · exact after (setFlag _ _) (after (modifyEntry _ _ _) (of_stations rfl))
      · exact modifyEntry _ _ _
      · exact modifyEntry _ _ _
      · exact modifyEntry _ _ _

/-- Every entry of a head stands at a slot of the head's station. -/
theorem entrySlots {f : State → SlotId → State} (h : ∀ s g, HeadWork (stationOf g) s (f s g)) (s u : State) :
    HeadWork st u ((s.entrySlots st).foldl f u) := by
  refine foldl _ (fun v g hg => ?_) u
  have hst : stationOf g = st := by
    unfold State.entrySlots at hg
    split at hg
    · cases hg
    · obtain ⟨e, -, rfl⟩ := List.mem_map.1 hg
      exact stationOf_slotOf _ _
  rw [← hst]
  exact h v g

theorem queueSound {s t : State} (h : HeadWork st s t) (hs : (s.station st).queueSound) : (t.station st).queueSound :=
  Station.queueSound_of_keys h.keys hs

theorem isSome_head? {s t : State} (h : HeadWork st s t) : (t.head? st).isSome = (s.head? st).isSome :=
  Station.isSome_head?_of_keys h.keys

end HeadWork

end Sys2Proof.Machine
end

section
/-! Every operation that dispatches bodies keeps the stations sound (R4, R7, R125): a release, a settled head, a head start, a
slot fault, a DONE, CLEAR STATION, a withdrawal and an accepted announcement. -/

namespace Sys2Proof.Machine

/-- What leaves every other station as it was and one station sound. -/
structure Restores (st : StationId) (s t : State) : Prop where
  others : ∀ st', st' ≠ st → t.station st' = s.station st'
  sound  : (t.station st).sound

namespace Restores

variable {st : StationId} {s t u : State}

theorem refl (h : (s.station st).sound) : Restores st s s := ⟨fun _ _ => rfl, h⟩

theorem after_work (k : Restores st t u) (h : HeadWork st s t) : Restores st s u :=
  ⟨fun st' e => (k.others st' e).trans (h.others st' e), k.sound⟩

/-- Two operations one after the other, the later one first. -/
theorem after (k : Restores st t u) (h : Restores st s t) : Restores st s u :=
  ⟨fun st' e => (k.others st' e).trans (h.others st' e), k.sound⟩

theorem stationsSound (k : Restores st s t) (h : s.stationsSound) : t.stationsSound :=
  State.stationsSound_of_station h k.others k.sound

theorem setStation {x : Station} (h : x.sound) : Restores st s (s.setStation st x) :=
  ⟨fun _ e => State.station_setStation_ne _ _ e, by rwa [State.station_setStation_self]⟩

theorem of_stations (k : Restores st s t) (h : u.tracker.stations = t.tracker.stations) : Restores st s u := by
  have hst := State.station_congr h
  exact ⟨fun st' e => (hst st').trans (k.others st' e), by rw [hst]; exact k.sound⟩

end Restores

variable {st : StationId} {s : State}

/-! ## A release, and a head settled (R15, R18) -/

/-- The stations a released head leaves: its own IDLE without it, every other as it was. -/
theorem State.releaseHead_stations {r : BodyRecord} (hh : s.head? st = some r) (cause : ReleaseCause) :
    (∀ st', st' ≠ st → (s.releaseHead st cause).station st' = s.station st') ∧
      ((s.releaseHead st cause).station st).queue = (s.station st).queue.tail ∧
      ((s.releaseHead st cause).station st).state = .idle := by
  obtain ⟨ha, rest, hq⟩ := Station.head?_eq_some.1 hh
  rw [State.releaseHead_eq hq ha rfl, hq]
  unfold State.released
  simp only
  have hst := fun u (v : State) c => State.station_congr (s := v) (t := v.offered st c)
    (by rw [State.offered_tracker]) u
  refine ⟨fun st' e => ?_, ?_, ?_⟩
  · rw [hst]
    exact State.station_setStation_ne s _ e
  · rw [hst]
    simp [State.station]
  · rw [hst]
    simp [State.station]

theorem Restores.releaseHead (hq : (s.station st).queueSound) (hh : (s.head? st).isSome = true) (cause : ReleaseCause) :
    Restores st s (s.releaseHead st cause) := by
  obtain ⟨r, hr⟩ := Option.isSome_iff_exists.1 hh
  obtain ⟨ho, hqueue, hstate⟩ := State.releaseHead_stations hr cause
  refine ⟨ho, (Station.sound_iff _).2 ⟨Station.queueSound_tail hq hqueue, ?_⟩⟩
  rw [Station.stateSound_iff_of_no_head (Station.head?_tail_of_queueSound hq hqueue), hstate]
  decide

/-- A head's station put into the state that the head's held marks call for. -/
theorem Restores.setStationState {r : BodyRecord} {x : StationState} (hq : (s.station st).queueSound) (hr : s.head? st = some r)
    (hx : x = if r.anyHeld = true then .held else .dispatching) : Restores st s (s.setStationState st x) := by
  refine Restores.setStation ((Station.sound_iff _).2 ⟨Station.queueSound_of_keys rfl hq, ?_⟩)
  have hr' : Station.head? { s.station st with state := x } = some r := hr
  exact (Station.stateSound_iff_of_head hr').2 hx

theorem Restores.settleHead (hq : (s.station st).queueSound) (hh : (s.head? st).isSome = true) :
    Restores st s (s.settleHead st) := by
  unfold State.settleHead
  split
  · next hn => rw [hn] at hh; cases hh
  · next r hr =>
    split
    · exact Restores.releaseHead hq hh _
    · exact Restores.setStationState hq hr rfl

/-- A sound station settled once more. -/
theorem Restores.settleHead_of_sound (h : (s.station st).sound) : Restores st s (s.settleHead st) := by
  cases hh : s.head? st with
  | none =>
    unfold State.settleHead
    rw [hh]
    exact .refl h
  | some r => exact Restores.settleHead ((Station.sound_iff _).1 h).1 (by rw [hh]; rfl)

/-- A body hold (R129) makes its station HELD and puts a held mark on its head. -/
theorem Restores.holdBody (hq : (s.station st).queueSound) (hh : (s.head? st).isSome = true) :
    Restores st s (s.holdBody st) := by
  obtain ⟨r, hr⟩ := Option.isSome_iff_exists.1 hh
  obtain ⟨ha, rest, hqueue⟩ := Station.head?_eq_some.1 hr
  rw [State.holdBody_eq hqueue ha]
  refine (Restores.setStation (s := s)
    (x := { s.station st with state := .held, queue := { r with bodyHeld := true } :: rest }) ?_).of_stations rfl
  refine (Station.sound_iff _).2 ⟨?_, ?_⟩
  · exact Station.queueSound_of_keys (by simp [Station.keys, hqueue]) hq
  · refine (Station.stateSound_iff_of_head (r := { r with bodyHeld := true }) ?_).2 ?_
    · exact Station.head?_eq_some.2 ⟨ha, rest, rfl⟩
    · simp [BodyRecord.anyHeld]

/-! ## Head starts (R12 to R15) -/

theorem HeadWork.latchReady : HeadWork st s (s.latchReady st) := setStation s rfl rfl

theorem HeadWork.startSlots (l : List SlotId) (h : ∀ g ∈ l, stationOf g = st) : HeadWork st s (l.foldl State.startSlot s) :=
  HeadWork.foldl l (fun v g hg => h g hg ▸ HeadWork.startSlot v g) s

theorem Restores.runHead (hq : (s.station st).queueSound) (hh : (s.head? st).isSome = true) :
    Restores st s (s.runHead st) := by
  unfold State.runHead
  split
  · next hn => rw [hn] at hh; cases hh
  · split
    · split
      · exact Restores.releaseHead hq hh _
      · exact Restores.holdBody hq hh
    · have w : HeadWork st s ((s.configuredSlots st).foldl State.startSlot (s.latchReady st)) :=
        .after (.startSlots _ fun g hg => State.stationOf_of_mem_configuredSlots hg) .latchReady
      exact (Restores.settleHead (w.queueSound hq) (w.isSome_head?.trans hh)).after_work w

/-- The front record made ACTIVE is the head of a queue that stays sound. -/
theorem State.activateFront_spec {s : State} (hq : (s.station st).queueSound) (hf : (s.station st).frontQueued = true) :
    (∀ st', st' ≠ st → (s.activateFront st).station st' = s.station st') ∧
      ((s.activateFront st).station st).queueSound ∧ ((s.activateFront st).head? st).isSome = true := by
  unfold State.activateFront
  simp only
  split
  · next hn => simp [Station.frontQueued, hn] at hf
  · next r rest hn =>
    refine ⟨fun _ e => State.station_setStation_ne _ _ e, ?_, ?_⟩
    · rw [State.station_setStation_self]
      unfold Station.queueSound at hq ⊢
      rw [hn] at hq
      obtain ⟨hl, hd, ht, -⟩ := hq
      exact ⟨hl, hd, ht, fun r' hr => .inr (by cases hr; rfl)⟩
    · unfold State.head?
      rw [State.station_setStation_self]
      rfl

theorem State.frontQueued_of_canStart (h : s.canStart st = true) : (s.station st).frontQueued = true := by
  unfold State.canStart at h
  simp only [Bool.and_eq_true] at h
  obtain ⟨⟨⟨-, hf⟩, -⟩, -⟩ := h
  exact hf

theorem Restores.startHeads (fuel : Nat) (h : (s.station st).sound) : Restores st s (State.startHeads st fuel s) := by
  induction fuel generalizing s with
  | zero => exact .refl h
  | succ fuel ih =>
    unfold State.startHeads
    split
    · next hc =>
      obtain ⟨ho, hq, hh⟩ := State.activateFront_spec ((Station.sound_iff _).1 h).1 (State.frontQueued_of_canStart hc)
      have k := Restores.runHead hq hh
      exact (ih k.sound).after ⟨fun st' e => (k.others st' e).trans (ho st' e), k.sound⟩
    · exact .refl h

theorem Restores.testStation (h : (s.station st).sound) : Restores st s (s.testStation st) := .startHeads _ h

theorem stationsSound_testStation (h : s.stationsSound) (st : StationId) : (s.testStation st).stationsSound :=
  (Restores.testStation (h st)).stationsSound h

theorem stationsSound_testEvery (h : s.stationsSound) : s.testEvery.stationsSound := by
  have key : ∀ (l : List StationId) (u : State), u.stationsSound → (l.foldl State.testStation u).stationsSound := by
    intro l
    induction l with
    | nil => exact fun _ hu => hu
    | cons st rest ih => exact fun u hu => ih _ (stationsSound_testStation hu st)
  exact key _ _ (State.stationsSound_congr rfl h)

theorem stationsSound_testAfterHold {before released tested : State} (h : tested.stationsSound) :
    (testAfterHold before released tested).stationsSound := by
  unfold testAfterHold
  split
  · exact stationsSound_testEvery h
  · exact h

/-- The release test of a sound station (R16, R18). -/
theorem Restores.testRelease (h : (s.station st).sound) : Restores st s (s.testRelease st) := by
  unfold State.testRelease
  split
  · next r hr =>
    split
    · have k := Restores.releaseHead ((Station.sound_iff _).1 h).1 (by rw [hr]; rfl) .finished
      exact (Restores.testStation k.sound).after k
    · exact .refl h
  · exact .refl h

/-! ## Slot faults and DONE (R125, R128) -/

theorem BodyRecord.anyHeld_modifyEntry (r : BodyRecord) (p : Position) {f : SlotEntry → SlotEntry}
    (hf : ∀ e, (f e).held = e.held) : (r.modifyEntry p f).anyHeld = r.anyHeld := by
  unfold BodyRecord.anyHeld BodyRecord.modifyEntry
  simp only [List.any_map]
  congr 2
  funext e
  simp only [Function.comp]
  split
  · exact hf e
  · rfl

theorem BodyRecord.anyHeld_of_entry_held {r : BodyRecord} {e : SlotEntry} (h : e ∈ r.entries) (he : e.held = true) :
    r.anyHeld = true := by
  simp only [BodyRecord.anyHeld, Bool.or_eq_true, List.any_eq_true]
  exact .inr ⟨e, h, he⟩

/-- A change of a head's entry that keeps its held mark keeps the station sound. -/
theorem Restores.modifyEntry (g : SlotId) (f : SlotEntry → SlotEntry) (hf : ∀ e, (f e).held = e.held)
    (h : (s.station (stationOf g)).sound) : Restores (stationOf g) s (s.modifyEntry g f) := by
  obtain ⟨hq, hs⟩ := (Station.sound_iff _).1 h
  have w := HeadWork.modifyEntry s g f
  refine ⟨w.others, (Station.sound_iff _).2 ⟨w.queueSound hq, ?_⟩⟩
  cases hh : s.head? (stationOf g) with
  | some r =>
    rw [Station.stateSound_iff_of_head (State.head?_modifyEntry f hh), w.state, r.anyHeld_modifyEntry _ hf]
    exact (Station.stateSound_iff_of_head hh).1 hs
  | none =>
    have hn := w.isSome_head?
    rw [hh] at hn
    rw [Station.stateSound_iff_of_no_head (Option.isSome_eq_false_iff.1 hn |> Option.isNone_iff_eq_none.1), w.state]
    exact (Station.stateSound_iff_of_no_head hh).1 hs

/-- A held mark placed on an entry of the head, and its DISPATCHING station made HELD (R125). -/
theorem Restores.holdEntry {g : SlotId} {e : SlotEntry} {f : SlotEntry → SlotEntry} (flag : EventFlag) (he : s.entry? g = some e)
    (hf : (f e).held = true) (h : (s.station (stationOf g)).sound) :
    Restores (stationOf g) s (((s.modifyEntry g f).setFlag flag).enterHeld (stationOf g)) := by
  obtain ⟨hq, hs⟩ := (Station.sound_iff _).1 h
  obtain ⟨r, hr, her⟩ := State.head?_of_entry? he
  have w : HeadWork (stationOf g) s ((s.modifyEntry g f).setFlag flag) := .after (.setFlag _ _) (.modifyEntry s g f)
  have hh : ((s.modifyEntry g f).setFlag flag).head? (stationOf g) = some (r.modifyEntry (positionOf g) f) :=
    State.head?_modifyEntry f hr
  have hm : (r.modifyEntry (positionOf g) f).anyHeld = true :=
    BodyRecord.anyHeld_of_entry_held (BodyRecord.mem_modifyEntry her f) hf
  have hstate := (Station.stateSound_iff_of_head hr).1 hs
  unfold State.enterHeld
  split
  · exact (Restores.setStationState (w.queueSound hq) hh (if_pos hm).symm).after_work w
  · next hd =>
    refine ⟨w.others, (Station.sound_iff _).2 ⟨w.queueSound hq, (Station.stateSound_iff_of_head hh).2 ?_⟩⟩
    rw [if_pos hm]
    rw [w.state] at hd ⊢
    rw [hstate] at hd ⊢
    split at hd
    · next hr => rw [if_pos hr]
    · exact absurd rfl hd

theorem Restores.takeFault {g : SlotId} {e : SlotEntry} (k : FaultKind) (he : s.entry? g = some e)
    (h : (s.station (stationOf g)).sound) : Restores (stationOf g) s (s.takeFault g k) := by
  unfold State.takeFault
  simp only
  split
  · exact .refl h
  · exact (Restores.holdEntry _ he rfl h).of_stations (by rw [State.mirrorFault_tracker])
  · have hc : ((s.cancelSlot g).station (stationOf g)).sound := by
      rw [State.station_congr (s := s) (by rw [State.cancelSlot_tracker])]
      exact h
    exact ((Restores.modifyEntry g (fun e => { e with faults := addFault e.faults k, state := .faulted }) (fun _ => rfl)
      hc).of_stations (by rw [State.mirrorFault_tracker])).after_work (.cancelSlot s g)
  · exact (Restores.modifyEntry g (fun e => { e with faults := addFault e.faults k, warned := true }) (fun _ => rfl)
      h).of_stations (by rw [State.mirrorFault_tracker]; rfl)

theorem Restores.takeTimeout (g : SlotId) (k : FaultKind) (h : (s.station (stationOf g)).sound) :
    Restores (stationOf g) s (s.takeTimeout g k) := by
  unfold State.takeTimeout
  split
  · next ho =>
    obtain ⟨e, he⟩ := Option.isSome_iff_exists.1 ho
    have k := Restores.takeFault k (State.entry?_of_tagOwner? he) h
    exact (Restores.testRelease k.sound).after k
  · exact .refl h

theorem Restores.acceptRefused {g : SlotId} {e : SlotEntry} (reason : Option Nat) (he : s.entry? g = some e)
    (h : (s.station (stationOf g)).sound) : Restores (stationOf g) s (s.acceptRefused g reason) := by
  unfold State.acceptRefused
  have k1 : Restores (stationOf g) (s.setTag g { s.tagState g with readyTimer := none })
      ((s.setTag g { s.tagState g with readyTimer := none }).modifyEntry g fun e =>
        { e with refusalReason := reason.or e.refusalReason }) := .modifyEntry _ _ (fun _ => rfl) h
  have k2 := Restores.takeFault .readyRefused
    (State.entry?_modifyEntry (s := s.setTag g { s.tagState g with readyTimer := none })
      (f := fun e => { e with refusalReason := reason.or e.refusalReason }) (fun _ => rfl) he) k1.sound
  exact ((Restores.testRelease k2.sound).after k2).after ⟨k1.others, k1.sound⟩

theorem Restores.acceptLoaded {g : SlotId} (h : (s.station (stationOf g)).sound) :
    Restores (stationOf g) s (s.acceptLoaded g) := by
  have k : Restores (stationOf g) (s.setTag g { s.tagState g with readyTimer := none, cycleTimer := s.cycleExpiry g })
      (s.acceptLoaded g) := .modifyEntry _ _ (fun _ => rfl) h
  exact ⟨k.others, k.sound⟩

theorem Restores.countAt (f : StationCounters → StationCounters) (h : (s.station st).sound) :
    Restores st s (s.countAt st f) := .setStation h

/-- SLOT FAULT records offered one after another leave the stations. -/
theorem State.foldl_mirrorFault_tracker (g : SlotId) (kinds : List FaultKind) (u : State) :
    (kinds.foldl (fun s k => s.mirrorFault g k) u).tracker = u.tracker := by
  induction kinds generalizing u with
  | nil => rfl
  | cons k rest ih => rw [List.foldl_cons, ih, State.mirrorFault_tracker]

theorem Restores.acceptDone {g : SlotId} {e e' : SlotEntry} (n : Nat) (reject dressed : Bool) (he : s.entry? g = some e)
    (h : (s.station (stationOf g)).sound) : Restores (stationOf g) s (s.acceptDone g e' n reject dressed) := by
  unfold State.acceptDone
  simp only
  generalize s.doneFaults g e' n reject = kinds
  generalize governing (kinds.map (s.mode (stationOf g))) = mode
  generalize hu : s.setTag g (s.tagState g).stopTimers = u
  have hs : u.tracker.stations = s.tracker.stations := by rw [← hu]; rfl
  have hsu : (u.station (stationOf g)).sound := by rw [State.station_congr hs]; exact h
  have heu : u.entry? g = some e := by rw [State.entry?_congr (s := s) (by rw [← hu, State.setTag_tracker])]; exact he
  have marked : ∀ m, mode = m → Restores (stationOf g) s (match m with
      | some .hold => ((u.modifyEntry g fun e => e.afterDone n kinds mode).setFlag (.stationHeld (stationOf g))).enterHeld
          (stationOf g)
      | some .warn => (u.modifyEntry g fun e => e.afterDone n kinds mode).setFlag (.stationWarning (stationOf g))
      | some .pass | some .off | none => u.modifyEntry g fun e => e.afterDone n kinds mode) := by
    intro m hm
    have kept : mode ≠ some .hold →
        Restores (stationOf g) s (u.modifyEntry g fun e => e.afterDone n kinds mode) := fun hne =>
      (Restores.modifyEntry _ _ (fun y => by simp [SlotEntry.afterDone, hne]) hsu).after_work (.of_stations hs)
    split
    · exact (Restores.holdEntry _ heu (by simp [SlotEntry.afterDone, hm]) hsu).after_work (.of_stations hs)
    · exact (kept (by rw [hm]; simp)).of_stations rfl
    · exact kept (by rw [hm]; simp)
    · exact kept (by rw [hm]; simp)
    · exact kept (by rw [hm]; simp)
  have recorded := fun (t : State) (h : Restores (stationOf g) s t) (x : Gun) =>
    h.of_stations (u := State.setGun (kinds.foldl (fun s k => s.mirrorFault g k) (t.mirrorDone g)) g x)
      (by rw [State.setGun_tracker, State.foldl_mirrorFault_tracker, State.mirrorDone_tracker])
  have k := recorded _ (marked mode rfl)
  exact (Restores.testRelease (k _).sound).after (k _)

end Sys2Proof.Machine
end

section
/-! CLEAR STATION, withdrawals and accepted announcements keep the stations sound (R7, R21, R22, R135). -/

namespace Sys2Proof.Machine

variable {st : StationId} {s : State}

/-! ## CLEAR STATION (R135 to R141) -/

/-- A station settled once the option has acted on its head: already sound, or still with a head. -/
theorem Restores.settled {t : State} (ho : ∀ st', st' ≠ st → t.station st' = s.station st')
    (h : (t.station st).sound ∨ ((t.station st).queueSound ∧ (t.head? st).isSome = true)) :
    Restores st s (t.settleHead st) := by
  have k : Restores st t (t.settleHead st) :=
    h.elim Restores.settleHead_of_sound fun h => Restores.settleHead h.1 h.2
  exact ⟨fun st' e => (k.others st' e).trans (ho st' e), k.sound⟩

/-- A head of which the entries were worked on is still there to be settled. -/
theorem Restores.settled_of_work {t : State} (w : HeadWork st s t) (hq : (s.station st).queueSound)
    (hh : (s.head? st).isSome = true) : Restores st s (t.settleHead st) :=
  Restores.settled w.others (.inr ⟨w.queueSound hq, w.isSome_head?.trans hh⟩)

theorem Restores.settled_of_restored {t : State} (k : Restores st s t) : Restores st s (t.settleHead st) :=
  Restores.settled k.others (.inl k.sound)

theorem HeadWork.unhold : HeadWork st s (s.modifyHead st BodyRecord.unheld) := .modifyHead s fun _ => ⟨rfl, rfl⟩

theorem HeadWork.drainTest : HeadWork st s s.drainTest := by
  unfold State.drainTest
  split
  · exact .of_stations rfl
  · exact .refl s

/-- A head released for Unknown Style once its mark is cleared (R138, R139). -/
theorem Restores.releaseUnheld (hq : (s.station st).queueSound) (hh : (s.head? st).isSome = true) :
    Restores st s ((s.modifyHead st BodyRecord.unheld).releaseHead st .unknownStyle) :=
  (Restores.releaseHead (HeadWork.unhold.queueSound hq) (HeadWork.unhold.isSome_head?.trans hh) _).after_work .unhold

theorem Restores.retryBody (hq : (s.station st).queueSound) (hh : (s.head? st).isSome = true) :
    Restores st s ((s.retryBody st).settleHead st) := by
  unfold State.retryBody
  split
  · next hn => rw [hn] at hh; cases hh
  · next r hr =>
    split
    · exact Restores.settleHead hq hh
    · split
      · next row _ =>
        have w : HeadWork st s (s.modifyHead st fun r =>
            { r with row := some row, bankTag := s.banks.active, bodyHeld := false, startedAt := some s.lineTime }) :=
          .modifyHead s fun _ => ⟨rfl, rfl⟩
        have run : ∀ u, HeadWork st s u → Restores st s (u.runHead st) := fun u w =>
          (Restores.runHead (w.queueSound hq) (w.isSome_head?.trans hh)).after_work w
        simp only
        split
        · exact .settled_of_restored (run _ w)
        · exact .settled_of_restored (run _ (.after .drainTest w))
      · split
        · exact .settled_of_restored (.releaseUnheld hq hh)
        · exact .settled_of_restored (.holdBody hq hh)

theorem Restores.skipBody (hq : (s.station st).queueSound) (hh : (s.head? st).isSome = true) :
    Restores st s ((s.skipBody st).settleHead st) := by
  unfold State.skipBody
  split
  · exact Restores.settleHead hq hh
  · split
    · exact .settled_of_restored (.releaseUnheld hq hh)
    · exact Restores.settleHead hq hh

/-- A head withdrawn is released (R22). -/
theorem Restores.abortHead (hq : (s.station st).queueSound) (hh : (s.head? st).isSome = true) :
    Restores st s (s.abortHead st) := by
  unfold State.abortHead
  have w : HeadWork st s (((s.entrySlots st).foldl State.withdrawEntry s).modifyHead st fun r => { r with bodyHeld := false }) :=
    .after (.modifyHead _ fun _ => ⟨rfl, rfl⟩) (.entrySlots HeadWork.withdrawEntry s s)
  exact (Restores.releaseHead (w.queueSound hq) (w.isSome_head?.trans hh) _).after_work w

theorem Restores.clearHead (o : ClearOption) (hq : (s.station st).queueSound) (hh : (s.head? st).isSome = true) :
    Restores st s ((s.clearHead st o).settleHead st) := by
  cases o with
  | retry =>
    have w := HeadWork.entrySlots (st := st) HeadWork.retryEntry s s
    exact (Restores.retryBody (w.queueSound hq) (w.isSome_head?.trans hh)).after_work w
  | skip =>
    have w := HeadWork.entrySlots (st := st) HeadWork.skipEntry s s
    exact (Restores.skipBody (w.queueSound hq) (w.isSome_head?.trans hh)).after_work w
  | abort => exact .settled_of_restored (.abortHead hq hh)

/-- A station with a head stays sound under CLEAR STATION, and every other station is tested sound. -/
theorem stationsSound_clearStation (o : ClearOption) (h : s.stationsSound) (hh : (s.head? st).isSome = true) :
    (s.clearStation st o).1.stationsSound := by
  unfold State.clearStation
  have k := Restores.clearHead o ((Station.sound_iff _).1 (h st)).1 hh
  exact stationsSound_testAfterHold (stationsSound_testStation (k.stationsSound h) st)

theorem Station.isSome_head?_of_held {x : Station} (h : x.sound) (hx : x.state = .held) : x.head?.isSome = true := by
  obtain ⟨-, hs, -⟩ := (Station.sound_iff _).1 h
  exact hs.1 (.inr hx)

/-! ## Withdrawals (R21, R22) -/

theorem stationsSound_withdrawHead (h : s.stationsSound) (hh : (s.head? st).isSome = true) :
    (s.withdrawHead st).stationsSound := by
  have k := Restores.abortHead ((Station.sound_iff _).1 (h st)).1 hh
  exact stationsSound_testAfterHold (stationsSound_testStation (k.stationsSound h) st)

theorem stationsSound_emitRelease (h : s.stationsSound) (r : BodyRecord) (cause : ReleaseCause) :
    (s.emitRelease r cause).stationsSound := by
  have k : Restores r.station s (s.emitRelease r cause) :=
    (Restores.setStation (s := s) (x := { s.station r.station with
      counters := (s.station r.station).counters.released (releaseOutcome cause r) }) (h r.station)).of_stations
      (by rw [State.emitRelease, State.mirror_tracker]; rfl)
  exact k.stationsSound h

/-- A sound station from whose queue QUEUED records are taken stays sound. -/
theorem Station.sound_filter {x y : Station} {p : BodyRecord → Bool} (h : x.sound)
    (hp : ∀ r ∈ x.queue, p r = false → r.state ≠ .active) (hq : y.queue = x.queue.filter p) (hs : y.state = x.state) :
    y.sound := by
  rw [Station.sound_iff] at h ⊢
  obtain ⟨⟨hl, hn, ht, hf⟩, hstate⟩ := h
  have hhead : y.head? = x.head? := by
    unfold Station.head?
    rw [hq]
    cases hx : x.queue with
    | nil => rfl
    | cons r rest =>
      rw [hx] at hp ht
      by_cases hr : p r = true
      · rw [List.filter_cons_of_pos hr]
      · rw [List.filter_cons_of_neg hr]
        simp only
        rw [if_neg (hp r List.mem_cons_self (by simpa using hr))]
        split
        · next z l hz =>
          have hz : z ∈ rest := (List.mem_filter.1 (hz ▸ List.mem_cons_self)).1
          rw [if_neg (by rw [ht z hz]; decide)]
        · rfl
  refine ⟨?_, ?_⟩
  · unfold Station.queueSound
    rw [hq]
    refine ⟨(List.length_filter_le _ _).trans hl, hn.sublist (List.filter_sublist.map _), ?_, ?_⟩
    · intro r hr
      cases hx : x.queue with
      | nil => rw [hx] at hr; cases hr
      | cons z rest =>
        rw [hx] at hr ht
        refine ht r ?_
        by_cases hz : p z = true
        · rw [List.filter_cons_of_pos hz] at hr
          exact (List.mem_filter.1 hr).1
        · rw [List.filter_cons_of_neg hz] at hr
          exact (List.mem_filter.1 (List.mem_of_mem_tail hr)).1
    · intro r hr
      have hr := (List.mem_filter.1 (List.mem_of_mem_head? hr)).1
      cases hx : x.queue with
      | nil => rw [hx] at hr; cases hr
      | cons z rest =>
        rw [hx] at hr ht hf
        rcases List.mem_cons.1 hr with rfl | hr
        · exact hf r rfl
        · exact .inl (ht r hr)
  · unfold Station.stateSound at hstate ⊢
    rwa [hhead, hs]

theorem stationsSound_withdrawQueued (h : s.stationsSound) {bodyId : BodyId} {r : BodyRecord}
    (hr : s.findBody st bodyId = some r) (ha : r.state ≠ .active) : (s.withdrawQueued st r).stationsSound := by
  refine stationsSound_emitRelease ((Restores.setStation ?_).stationsSound h) _ _
  refine Station.sound_filter (h st) (fun y hy hp hya => ?_) rfl rfl
  obtain ⟨hmem, hb⟩ : r ∈ (s.station st).queue ∧ r.bodyId = bodyId :=
    ⟨List.mem_of_find?_eq_some hr, by simpa using List.find?_some hr⟩
  have hn : ((s.station st).queue.map (·.bodyId)).Nodup := by
    obtain ⟨⟨-, hn, -⟩, -⟩ := (Station.sound_iff _).1 (h st)
    exact hn
  have hyr : y = r := List.inj_on_of_nodup_map hn hy hmem (by simpa using hp)
  exact ha (hyr ▸ hya)

/-! ## Acceptance (R6, R7) -/

theorem joinQueue_normal {r : BodyRecord} (h : r.origin = .normal) (queue : List BodyRecord) :
    joinQueue queue r = queue ++ [r] := by
  unfold joinQueue
  rw [h]

/-- A REWORK record joins ahead of the first NORMAL record that is QUEUED. -/
theorem joinQueue_rework {r : BodyRecord} (h : r.origin = .rework) (queue : List BodyRecord) : ∃ ahead behind,
    queue = ahead ++ behind ∧ joinQueue queue r = ahead ++ r :: behind ∧
      (∀ x ∈ ahead, x.origin = .rework ∨ x.state ≠ .queued) ∧
      ∀ x, behind.head? = some x → x.origin = .normal ∧ x.state = .queued := by
  unfold joinQueue
  rw [h]
  generalize hp : (fun x : BodyRecord => !(x.origin == .normal && x.state == .queued)) = p
  have hd : queue.drop (queue.takeWhile p).length = queue.dropWhile p := by
    have := List.drop_left (l₁ := queue.takeWhile p) (l₂ := queue.dropWhile p)
    rwa [List.takeWhile_append_dropWhile] at this
  refine ⟨queue.takeWhile p, queue.dropWhile p, by simp, by simp only [hd], fun x hx => ?_, fun x hx => ?_⟩
  · have := List.mem_takeWhile_imp hx
    subst hp
    cases ho : x.origin with
    | rework => exact .inl rfl
    | normal => exact .inr (by simpa [ho] using this)
  · have := List.head?_dropWhile_not p queue
    rw [hx] at this
    subst hp
    simpa using this

/-- Where a record joins a queue: ahead of nothing but records of which the first is QUEUED. -/
theorem joinQueue_split (queue : List BodyRecord) (r : BodyRecord) : ∃ ahead behind, queue = ahead ++ behind ∧
    joinQueue queue r = ahead ++ r :: behind ∧ ∀ x, behind.head? = some x → x.state = .queued := by
  cases h : r.origin with
  | normal => exact ⟨queue, [], by simp, by simp [joinQueue_normal h], by simp⟩
  | rework =>
    obtain ⟨ahead, behind, hs, hj, -, hb⟩ := joinQueue_rework h queue
    exact ⟨ahead, behind, hs, hj, fun x hx => (hb x hx).2⟩

/-- A QUEUED record of a Body Id new to the queue joins a sound station with room for it. -/
theorem Station.sound_joinQueue {x y : Station} {r : BodyRecord} (h : x.sound) (hr : r.state = .queued)
    (hl : x.queue.length < 4) (hn : ∀ z ∈ x.queue, z.bodyId ≠ r.bodyId) (hq : y.queue = joinQueue x.queue r)
    (hs : y.state = x.state) : y.sound := by
  rw [Station.sound_iff] at h ⊢
  obtain ⟨⟨-, hd, ht, hf⟩, hstate⟩ := h
  obtain ⟨ahead, behind, he, hj, hb⟩ := joinQueue_split x.queue r
  rw [hj] at hq
  have hperm : y.queue.Perm (r :: x.queue) := by
    rw [hq, he]
    exact List.perm_middle
  have hqueued : ahead = [] → ∀ z ∈ x.queue, z.state = .queued := by
    intro ha z hz
    rw [ha, List.nil_append] at he
    cases hx : x.queue with
    | nil => rw [hx] at hz; cases hz
    | cons w rest =>
      rw [hx] at hz ht
      rcases List.mem_cons.1 hz with rfl | hz
      · exact hb z (by rw [← he, hx]; rfl)
      · exact ht z hz
  have hhead : y.head? = x.head? := by
    unfold Station.head?
    cases ahead with
    | nil =>
      rw [hq]
      simp only [List.nil_append]
      rw [if_neg (by rw [hr]; decide)]
      split
      · next z rest hz => rw [if_neg (by rw [hqueued rfl z (hz ▸ List.mem_cons_self)]; decide)]
      · rfl
    | cons z rest => rw [hq, he]; rfl
  refine ⟨⟨?_, ?_, ?_, ?_⟩, ?_⟩
  · rw [hperm.length_eq, List.length_cons]
    omega
  · rw [(hperm.map _).nodup_iff, List.map_cons, List.nodup_cons]
    exact ⟨fun hm => by obtain ⟨z, hz, hz'⟩ := List.mem_map.1 hm; exact hn z hz hz', hd⟩
  · intro z hz
    rw [hq] at hz
    cases ahead with
    | nil => exact hqueued rfl z (by rw [he]; exact hz)
    | cons w rest =>
      rw [he] at ht
      rcases List.mem_append.1 hz with hz | hz
      · exact ht z (List.mem_append_left _ hz)
      · rcases List.mem_cons.1 hz with rfl | hz
        · exact hr
        · exact ht z (List.mem_append_right _ hz)
  · intro z hz
    rw [hq] at hz
    cases ahead with
    | nil => cases hz; exact .inl hr
    | cons w rest => exact hf z (by rw [he]; exact hz)
  · unfold Station.stateSound at hstate ⊢
    rwa [hhead, hs]

theorem stationsSound_accept (h : s.stationsSound) {r : BodyRecord} (c : Bool) (hr : r.state = .queued)
    (hl : (s.station st).queue.length < 4) (hn : ∀ z ∈ (s.station st).queue, z.bodyId ≠ r.bodyId) :
    (s.accept st r c).stationsSound := by
  have k : ∀ x, x.queue = joinQueue (s.station st).queue r → x.state = (s.station st).state →
      ((s.setStation st x).setFlagIf c (.stationWarning st)).stationsSound := fun x hq hs =>
    State.stationsSound_congr (by cases c <;> rfl)
      ((Restores.setStation (Station.sound_joinQueue (h st) hr hl hn hq hs)).stationsSound h)
  have joined := k { s.station st with queue := joinQueue (s.station st).queue r } rfl rfl
  unfold State.accept
  simp only
  split
  · exact stationsSound_testStation joined st
  · exact joined

end Sys2Proof.Machine
end

section
/-! What every step keeps: settings in range (R11, R73, R123), sound stations (R2, R4, R7, R125), one telegram for a slot (R98), and
queues within their room (R1, R8, R150, R152, R156). One relation between the state before and the state after holds of the effect
of every command, and of a millisecond. -/

namespace Sys2Proof.Machine

/-- What an operation keeps of the invariants of settings, stations and queues. -/
structure Sustains (s t : State) : Prop where
  settings : s.settingsInRange → t.settingsInRange
  sound    : s.stationsSound → t.stationsSound
  keeps    : Keeps s t
  uplink   : s.uplinkBounded → t.uplinkBounded
  room     : s.roomKept → t.roomKept

/-- A change beside the bodies: the queues and states of the stations, the Uplink own-telegram queue and the Request Queue stay,
and what is written stays within its bounds. A field that stays as it was needs no proof. -/
structure Aside (s t : State) : Prop where
  stations : ∀ st, (t.station st).queue = (s.station st).queue ∧ (t.station st).state = (s.station st).state := by
    exact fun _ => ⟨rfl, rfl⟩
  limits : ∀ st, (s.station st).settingsInRange → (t.station st).settingsInRange := by exact fun _ h => h
  guns : s.loader.limitsFit → ∀ g : SlotId, s.guns[g].inRange → t.guns[g].inRange := by exact fun _ _ h => h
  config : s.loader.limitsFit → t.loader.limitsFit := by exact fun h => h
  cells : s.cellKept → t.cellKept := by exact fun h => h
  banks : ∀ r ∈ s.recordsInUse, (r.bankTag = s.banks.active ∨ s.banks.other = .draining) →
    (r.bankTag = t.banks.active ∨ t.banks.other = .draining) := by exact fun _ _ h => h
  uplinkOwn : t.ports.uplinkOwn = s.ports.uplinkOwn := by rfl
  requests : t.agent.requests = s.agent.requests := by rfl
  notice : t.events.noticePending = s.events.noticePending := by rfl
  toCell : t.ports.toCell = s.ports.toCell := by rfl
  toUplink : t.ports.toUplink = s.ports.toUplink := by rfl
  log : s.tracker.refusalLog.length ≤ 4 → t.tracker.refusalLog.length ≤ 4 := by exact fun h => h

theorem Station.sound_congr {x y : Station} (hq : y.queue = x.queue) (hs : y.state = x.state) (h : x.sound) : y.sound := by
  unfold Station.sound Station.head? at h ⊢
  rwa [hq, hs]

theorem State.recordsInUse_congr {s t : State} (hq : ∀ st, (t.station st).queue = (s.station st).queue)
    (hu : t.ports.uplinkOwn = s.ports.uplinkOwn) : t.recordsInUse = s.recordsInUse := by
  unfold State.recordsInUse State.queued State.releasing
  simp only [hq, hu]

theorem State.uplinkBounded_congr {s t : State} (hu : t.ports.uplinkOwn = s.ports.uplinkOwn)
    (hr : t.agent.requests = s.agent.requests) (hn : t.events.noticePending = s.events.noticePending)
    (h : s.uplinkBounded) : t.uplinkBounded := by
  unfold State.uplinkBounded State.copiesWaiting at h ⊢
  rwa [hu, hr, hn]

/-- A telegram whose class is Matching names the head's entry that owns the slot's tag (R106). -/
theorem State.tagOwner?_of_matching {s : State} {g : SlotId} {tag : Tag} {b : Bool} {e : SlotEntry}
    (h : s.classify g tag b = .matching e) : s.tagOwner? g = some e := by
  unfold State.classify at h
  simp only at h
  split at h
  · cases h
  · split at h
    · split at h
      · next e' he =>
        split at h
        · split at h
          · cases h
          · split at h
            · cases h
            · cases h
              exact he
        · split at h
          · cases h
          · split at h
            · split at h <;> cases h
            · cases h
      · cases h
    · split at h
      · split at h <;> cases h
      · cases h

/-- An announcement that R5 does not refuse finds room for its record, and no record of its Body Id. -/
theorem room_of_announceRefusal {s : State} {source : Node} {bodyId : BodyId} {station : Octet} {st : StationId}
    (h : announceRefusal s source bodyId station = none) (hst : s.configuredStation? station = some st) :
    (s.station st).queue.length < 4 ∧ s.recordsInUse.length < 16 ∧ ∀ r ∈ (s.station st).queue, r.bodyId ≠ bodyId := by
  unfold announceRefusal at h
  split at h
  · cases h
  · split at h
    · cases h
    · rw [hst] at h
      simp only at h
      split at h
      · cases h
      · split at h
        · cases h
        · split at h
          · cases h
          · next hd =>
            split at h
            · cases h
            · next hf =>
              refine ⟨by omega, by omega, fun r hr hb => hd ?_⟩
              exact List.any_eq_true.2 ⟨r, hr, by simpa using hb⟩

namespace Sustains

theorem refl (s : State) : Sustains s s := ⟨id, id, .refl s, id, id⟩

/-- Two operations one after the other, the later one first. -/
theorem after {s t u : State} (k : Sustains t u) (h : Sustains s t) : Sustains s u :=
  ⟨fun x => k.settings (h.settings x), fun x => k.sound (h.sound x), .after k.keeps h.keeps, fun x => k.uplink (h.uplink x),
    fun x => k.room (h.room x)⟩

theorem of_aside {s t : State} (h : Aside s t) : Sustains s t := by
  have hq := fun st => (h.stations st).1
  have hrec := State.recordsInUse_congr hq h.uplinkOwn
  refine ⟨fun ⟨h1, h2, h3⟩ => ⟨fun g => h.guns h3 g (h1 g), fun st => h.limits st (h2 st), h.config h3⟩,
    fun hs st => Station.sound_congr (hq st) (h.stations st).2 (hs st), ⟨h.cells, fun hb => ?_, fun ho st => ?_, fun hf st => ?_⟩,
    State.uplinkBounded_congr h.uplinkOwn h.requests h.notice, fun ⟨r1, r2, r3, r4⟩ => ?_⟩
  · unfold State.bankTagsKept
    rw [hrec]
    exact fun r hr => h.banks r hr (hb r hr)
  · rw [hq]
    exact ho st
  · rw [hq]
    exact hf st
  · exact ⟨by rw [h.toCell]; exact r1, by rw [h.toUplink]; exact r2, h.log r3, by rw [hrec]; exact r4⟩

/-- Dispatching bodies keeps all of it, where it keeps the stations sound. -/
theorem of_dispatched {s t : State} (d : Dispatched s t) (k : Keeps s t) (n : NoMoreRecords s t)
    (h : s.stationsSound → t.stationsSound) : Sustains s t := by
  refine ⟨d.settingsInRange, h, k, d.uplinkBounded, fun ⟨r1, r2, r3, r4⟩ => ?_⟩
  obtain ⟨c, u, hp, -⟩ := d.ports
  obtain ⟨-, -, hl⟩ := d.shape
  exact ⟨by rw [hp]; exact r1, by rw [hp]; exact r2, by rw [hl]; exact r3, n.le.trans r4⟩

/-- Dispatching bodies at one station. -/
theorem of_restores {s t : State} {st : StationId} (d : Dispatched s t) (k : Keeps s t) (n : NoMoreRecords s t)
    (h : (s.station st).sound → Restores st s t) : Sustains s t :=
  of_dispatched d k n fun hs => (h (hs st)).stationsSound hs

theorem testAfterHold {s before released tested : State} (h : Sustains s tested) :
    Sustains s (Machine.testAfterHold before released tested) := by
  refine .after ?_ h
  exact of_dispatched (.testAfterHold (.refl _)) (.testAfterHold (.refl _)) (.testAfterHold (.refl _))
    fun hs => stationsSound_testAfterHold hs

/-- The NOTICE at the end of an event (R171). -/
theorem settleNotice (before after : State) : Sustains after (Machine.settleNotice before after) := by
  rcases settleNotice_cases before after with h | ⟨hn, h⟩
  · rw [h]
    exact refl after
  · rw [h]
    have hrec : State.recordsInUse ((after.setPorts { after.ports with
        uplinkOwn := after.ports.uplinkOwn ++ [.notice] }).setEvents { after.events with noticePending := true }) =
        after.recordsInUse := by
      simp [State.recordsInUse, State.queued, State.station, State.releasing, UplinkTelegram.releaseRecord?]
    refine ⟨id, id, ⟨id, fun hb => ?_, id, id⟩, fun ⟨h1, h2, h3, h4, h5⟩ => ?_, fun ⟨r1, r2, r3, r4⟩ => ?_⟩
    · unfold State.bankTagsKept at hb ⊢
      rwa [hrec]
    · rw [hn] at h2
      refine ⟨?_, ?_, ?_, h4, h5⟩
      · simpa [State.copiesWaiting, UplinkTelegram.isCopy] using h1
      · simpa [UplinkTelegram.isNotice] using h2
      · simpa [UplinkTelegram.isReply] using h3
    · exact ⟨r1, r2, r3, by rw [hrec]; exact r4⟩

/-! ## Frames and telegrams received (R144 to R150) -/

theorem frameError (s : State) : Sustains s s.frameError := of_aside {}

theorem setLink (s : State) (port : Port) (up : Bool) : Sustains s (s.setLink port up) := by
  cases port <;> exact of_aside {}

theorem forward (s : State) (port : Port) (f : Frame) : Sustains s (s.forward port f) := by
  unfold State.forward
  split
  · split
    · next h =>
      exact ⟨id, id, .of_eq rfl rfl rfl (fun _ => rfl) ⟨rfl, rfl⟩, id, fun ⟨_, r2, r3, r4⟩ =>
        ⟨by simpa [forwardDepth] using h, r2, r3, r4⟩⟩
    · exact of_aside {}
  · split
    · next h =>
      exact ⟨id, id, .of_eq rfl rfl rfl (fun _ => rfl) ⟨rfl, rfl⟩, id, fun ⟨r1, _, r3, r4⟩ =>
        ⟨r1, by simpa [forwardDepth] using h, r3, r4⟩⟩
    · exact of_aside {}

/-- A REQUEST joins the back of the Request Queue while it holds fewer than 4 (R156). -/
theorem takeRequest (s : State) (source : Node) (number : BitVec 16) (code : Octet) (params : List Octet) :
    Sustains s (s.takeRequest source number code params) := by
  unfold State.takeRequest
  simp only
  split
  · next h =>
    refine ⟨id, id, .of_eq rfl rfl rfl (fun _ => rfl) ⟨rfl, rfl⟩, fun ⟨h1, h2, h3, h4, h5⟩ => ⟨h1, h2, ?_, ?_, ?_⟩, id⟩
    · simpa using h3
    · simpa using Nat.succ_le_of_lt h
    · simp only [State.setAgent_agent, State.setFilter_agent, List.map_append, List.pairwise_append]
      exact ⟨h5, by simp, by simp⟩
  · exact of_aside {}

theorem countAt (s : State) (st : StationId) (f : StationCounters → StationCounters) : Sustains s (s.countAt st f) :=
  of_restores (.countAt ..) (.countAt ..) (.countAt ..) (.countAt f)

theorem takeReady (s : State) (g : SlotId) (tag : Tag) (verdict reason program : Octet) :
    Sustains s (s.takeReady g tag verdict reason program) := by
  unfold State.takeReady
  split
  · exact frameError s
  · split
    · exact countAt _ _ _
    · exact countAt _ _ _
    · exact countAt _ _ _
    · next e he =>
      have hentry := State.entry?_of_tagOwner? (State.tagOwner?_of_matching he)
      have refused : ∀ r, Sustains s (s.acceptRefused g r) := fun r =>
        of_restores (.acceptRefused ..) (.acceptRefused ..) (.acceptRefused ..) (.acceptRefused r hentry)
      split
      · exact countAt _ _ _
      · split
        · exact refused _
        · split
          · exact of_restores (.acceptLoaded ..) (.acceptLoaded ..) (.acceptLoaded ..) .acceptLoaded
          · exact refused _

theorem takeDone (s : State) (g : SlotId) (tag : Tag) (spots quality dressed : Octet) :
    Sustains s (s.takeDone g tag spots quality dressed) := by
  unfold State.takeDone
  split
  · exact frameError s
  · split
    · exact countAt _ _ _
    · exact countAt _ _ _
    · exact of_restores
        (.after (.setGun _ _ _ fun h => Dispatched.completion_inRange (x := s.gun g) h _ _ _) (.countAt ..))
        (.after (.setGun ..) (.countAt ..)) (.after (.setGun ..) (.countAt ..))
        fun h => (Restores.countAt (fun c => { c with late := bump c.late }) h).of_stations rfl
    · next e he =>
      exact of_restores (.acceptDone ..) (.acceptDone ..) (.acceptDone ..)
        (.acceptDone _ _ _ (State.entry?_of_tagOwner? (State.tagOwner?_of_matching he)))

theorem forRobot (s : State) (source : Node) {take : State → SlotId → State} (h : ∀ g, Sustains s (take s g)) :
    Sustains s (s.forRobot source take) := by
  unfold State.forRobot
  split
  · exact h _
  · exact frameError s

/-- A refusal is logged among the last four (R8). -/
theorem refuse (s : State) (bodyId : BodyId) (station : Octet) (reason : RefusalReason) :
    Sustains s (s.refuse bodyId station reason) :=
  of_aside { log := fun _ => by simp only [State.refuse, State.setFlag_tracker, State.setEvents_tracker,
    State.setTracker_tracker, List.length_drop]; omega }

theorem accept (s : State) (st : StationId) {r : BodyRecord} (c : Bool) (hr : r.state = .queued)
    (ht : r.bankTag = s.banks.active)
    (hf : r.entries = [] ∧ r.bodyHeld = false ∧ r.startedAt = none ∧ r.releasedAt = none ∧ r.outcome = none)
    (hl : (s.station st).queue.length < 4) (hu : s.recordsInUse.length < 16)
    (hn : ∀ z ∈ (s.station st).queue, z.bodyId ≠ r.bodyId) : Sustains s (s.accept st r c) := by
  have d := Dispatched.accept s st r c
  refine ⟨d.settingsInRange, fun hs => stationsSound_accept hs c hr hl hn, .accept s st r c ht hf, d.uplinkBounded,
    fun ⟨r1, r2, r3, _⟩ => ?_⟩
  obtain ⟨c', u, hp, -⟩ := d.ports
  obtain ⟨-, -, hlog⟩ := d.shape
  have := NoMoreRecords.length_accept s st r c
  exact ⟨by rw [hp]; exact r1, by rw [hp]; exact r2, by rw [hlog]; exact r3, by omega⟩

theorem takeAnnounce (s : State) (source : Node) (bodyId : BodyId) (station origin : Octet) (style options : BitVec 16)
    (variant : Octet) : Sustains s (s.takeAnnounce source bodyId station origin style options variant) := by
  unfold State.takeAnnounce
  split
  · exact frameError s
  · split
    · exact refuse _ _ _ _
    · exact refuse _ _ _ _
    · next st hr hst =>
      obtain ⟨hl, hu, hn⟩ := room_of_announceRefusal hr hst
      exact accept s st _ rfl rfl ⟨rfl, rfl, rfl, rfl, rfl⟩ hl hu hn

/-- A withdrawal whose sender has been checked (R21). -/
theorem withdrawBody (s : State) (bodyId : BodyId) (station : Octet) : Sustains s (s.withdrawBody bodyId station).1 := by
  unfold State.withdrawBody
  split
  · exact refuse _ _ _ _
  · next st hst =>
    split
    · exact refuse _ _ _ _
    · next r hr =>
      have hmem : r ∈ (s.station st).queue := List.mem_of_find?_eq_some hr
      simp only
      split
      · next ha =>
        refine of_dispatched (.withdrawHead ..) (.withdrawHead ..) (.withdrawHead ..) fun hs => ?_
        have hq := ((Station.sound_iff _).1 (hs st)).1
        exact stationsSound_withdrawHead hs (by
          rw [State.head?, Station.head?_of_active hq hmem ha]
          rfl)
      · next ha =>
        exact of_dispatched (.withdrawQueued ..) (.withdrawQueued _ _ _ hmem) (.withdrawQueued _ _ _ ⟨r, hmem, rfl⟩)
          fun hs => stationsSound_withdrawQueued hs hr ha

theorem takeWithdraw (s : State) (source : Node) (bodyId : BodyId) (station : Octet) :
    Sustains s (s.takeWithdraw source bodyId station) := by
  unfold State.takeWithdraw
  split
  · exact refuse _ _ _ _
  · exact withdrawBody _ _ _

theorem fromSource (s : State) (k : TelegramKind) (port : Port) (source : Node) {take : State → State}
    (h : Sustains s (take s)) : Sustains s (s.fromSource k port source take) := by
  unfold State.fromSource
  split
  · split
    · exact frameError s
    · exact h
  · exact refl s

/-- What a telegram's body is read to, where a frame's octets spell it, or a frame error. -/
theorem getD_frameError {s : State} {o : Option State} (h : ∀ t, o = some t → Sustains s t) :
    Sustains s (o.getD s.frameError) := by
  cases o with
  | none => exact frameError s
  | some t => exact h t rfl

theorem consume (s : State) (k : TelegramKind) (source : Node) (body : List Octet) : Sustains s (s.consume k source body) := by
  unfold State.consume
  refine getD_frameError fun t ht => ?_
  split at ht
  · simp only [State.announceBody, Option.bind_eq_bind, Option.bind_eq_some_iff, Option.some.injEq] at ht
    obtain ⟨_, _, _, _, _, _, _, _, _, _, _, _, rfl⟩ := ht
    exact takeAnnounce ..
  · simp only [State.withdrawTelegramBody, Option.bind_eq_bind, Option.bind_eq_some_iff, Option.some.injEq] at ht
    obtain ⟨_, _, _, _, rfl⟩ := ht
    exact takeWithdraw ..
  · simp only [State.requestBody, Option.bind_eq_bind, Option.bind_eq_some_iff, Option.some.injEq] at ht
    obtain ⟨_, _, _, _, rfl⟩ := ht
    exact takeRequest ..
  · simp only [State.readyBody, Option.bind_eq_bind, Option.bind_eq_some_iff, Option.some.injEq] at ht
    obtain ⟨_, _, _, _, _, _, _, _, rfl⟩ := ht
    exact forRobot _ _ fun g => takeReady ..
  · simp only [State.doneBody, Option.bind_eq_bind, Option.bind_eq_some_iff, Option.some.injEq] at ht
    obtain ⟨_, _, _, _, _, _, _, _, rfl⟩ := ht
    exact forRobot _ _ fun g => takeDone ..
  all_goals cases ht

theorem receiveFrame (s : State) (port : Port) (good : Bool) (f : Frame) : Sustains s (s.receiveFrame port good f) := by
  unfold State.receiveFrame
  split
  · unfold State.sortFrame
    split
    · exact forward _ _ _
    · split
      · exact forward _ _ _
      · split
        · split
          · exact of_aside {}
          · exact forward _ _ _
        · split
          · exact consume _ _ _ _
          · exact frameError s
  · exact refl s

end Sustains

end Sys2Proof.Machine
end

section
/-! What every step keeps, continued: transmissions and a cleared part. -/

namespace Sys2Proof.Machine

/-! ## A part without bodies (R24, R155, R185) -/

/-- A part whose stations are OFFLINE and whose queues are all empty, as a reset or a RESTART leaves it. -/
structure State.cleared (s : State) : Prop where
  stations : ∀ st, (s.station st).queue = [] ∧ (s.station st).state = .offline := by exact fun _ => ⟨rfl, rfl⟩
  cellOwn : s.ports.cellOwn = [] := by rfl
  uplinkOwn : s.ports.uplinkOwn = [] := by rfl
  toCell : s.ports.toCell = [] := by rfl
  toUplink : s.ports.toUplink = [] := by rfl
  requests : s.agent.requests = [] := by rfl
  notice : s.events.noticePending = false := by rfl
  log : s.tracker.refusalLog = [] := by rfl

namespace State.cleared

variable {s : State}

theorem recordsInUse (h : s.cleared) : s.recordsInUse = [] := by
  simp [State.recordsInUse, State.queued, State.releasing, fun st => (h.stations st).1, h.uplinkOwn]

theorem stationsSound (h : s.cleared) : s.stationsSound := by
  intro st
  obtain ⟨hq, hs⟩ := h.stations st
  simp [Station.sound, Station.head?, hq, hs]

theorem cellKept (h : s.cleared) : s.cellKept := by simp [State.cellKept, h.cellOwn]

theorem bankTagsKept (h : s.cleared) : s.bankTagsKept := by simp [State.bankTagsKept, h.recordsInUse]

theorem reworkFirst (h : s.cleared) : s.reworkFirst := fun st => by
  simp [Machine.reworkFirst, (h.stations st).1]

theorem queuedFresh (h : s.cleared) : s.queuedFresh := fun st => by simp [(h.stations st).1]

theorem uplinkBounded (h : s.cleared) : s.uplinkBounded := by
  simp [State.uplinkBounded, State.copiesWaiting, h.uplinkOwn, h.requests, h.notice]

theorem roomKept (h : s.cleared) : s.roomKept := by
  simp [State.roomKept, h.toCell, h.toUplink, h.log, h.recordsInUse]

end State.cleared

/-! ## The power-up values (R49, R74, R143) -/

theorem Gun.inRange_reset : Gun.reset.inRange := by decide

theorem Station.settingsInRange_reset : Station.reset.settingsInRange := by decide

/-- An Image Loader that has read no configuration. -/
theorem Loader.limitsFit_of_none {l : Loader} (h : l.config = none) : l.limitsFit := by
  intro c hc
  rw [h] at hc
  cases hc

theorem State.settingsInRange_reset : State.reset.settingsInRange := by
  refine ⟨fun g => ?_, fun st => ?_, Loader.limitsFit_of_none rfl⟩
  · simpa [State.reset] using Gun.inRange_reset
  · simpa [State.reset, State.station] using Station.settingsInRange_reset

theorem State.cleared_reset : State.reset.cleared where
  stations := fun st => by simp [State.reset, State.station, Station.reset]

/-- The power-up reset keeps of the reset state all but link states, flash, waiting commands and free-value count (R185). -/
theorem State.cleared_powerUp (s : State) : s.powerUp.cleared where
  stations := State.cleared_reset.stations

theorem State.station_restart (s : State) (st : StationId) : s.restart.station st = (s.station st).restarted := by
  simp [State.restart, State.station, mapVector]

theorem State.cleared_restart (s : State) : s.restart.cleared where
  stations := fun st => by
    rw [State.station_restart]
    exact ⟨rfl, rfl⟩

namespace Sustains

theorem of_cleared {s t : State} (h : t.cleared) (hs : s.settingsInRange → t.settingsInRange) : Sustains s t :=
  ⟨hs, fun _ => h.stationsSound, ⟨fun _ => h.cellKept, fun _ => h.bankTagsKept, fun _ => h.reworkFirst, fun _ => h.queuedFresh⟩,
    fun _ => h.uplinkBounded, fun _ => h.roomKept⟩

theorem powerUp (s : State) : Sustains s s.powerUp := of_cleared s.cleared_powerUp fun _ => State.settingsInRange_reset

theorem restart (s : State) : Sustains s s.restart := of_cleared s.cleared_restart fun ⟨h1, h2, _⟩ =>
  ⟨h1, fun st => by rw [State.station_restart]; exact h2 st, Loader.limitsFit_of_none rfl⟩

/-! ## Transmissions (R153) -/

theorem takeCell (s : State) (t : CellTelegram) : Sustains s (s.takeCell t) :=
  of_aside { cells := fun ⟨h1, h2⟩ => ⟨h1.sublist ((List.tail_sublist _).map _), fun x hx => h2 x (List.mem_of_mem_tail hx)⟩ }

theorem selectDeparts (s : State) (g : SlotId) : Sustains s (s.selectDeparts g) := by
  unfold State.selectDeparts
  split
  · exact of_restores (.after (.modifyEntry ..) (.setTag _ _ _ id)) (.after (.modifyEntry ..) (.setTag _ _ _ rfl))
      (.after (.modifyEntry ..) (.setTag ..)) fun h => by
        have k := Restores.modifyEntry (s := s.setTag g { s.tagState g with readyTimer := s.readyTimerAt g }) g
          (fun e => { e with selectedAt := some s.lineTime }) (fun _ => rfl) h
        exact ⟨k.others, k.sound⟩
  · exact refl s

theorem selectTransmit (s : State) : Sustains s s.selectTransmit := by
  unfold State.selectTransmit
  split
  · split
    · exact after (selectDeparts _ _) (takeCell _ _)
    · exact refl s
  · exact refl s

theorem cancelTransmit (s : State) : Sustains s s.cancelTransmit := by
  unfold State.cancelTransmit
  split
  · split
    · exact takeCell _ _
    · exact refl s
  · exact refl s

theorem forwardTransmit (s : State) (port : Port) : Sustains s (s.forwardTransmit port) := by
  have shorter : ∀ {f : Frame} {l rest : List Frame}, l = f :: rest → l.length ≤ 32 → rest.length ≤ 32 := by
    rintro f _ rest rfl h
    exact Nat.le_of_succ_le h
  unfold State.forwardTransmit
  split
  · split
    · next f rest hq =>
      split
      · exact ⟨id, id, .of_eq rfl rfl rfl (fun _ => rfl) ⟨rfl, rfl⟩, id,
          fun ⟨r1, r2, r3, r4⟩ => ⟨r1, shorter hq r2, r3, r4⟩⟩
      · exact refl s
    · exact refl s
  · split
    · next f rest hq =>
      split
      · exact ⟨id, id, .of_eq rfl rfl rfl (fun _ => rfl) ⟨rfl, rfl⟩, id,
          fun ⟨r1, r2, r3, r4⟩ => ⟨shorter hq r1, r2, r3, r4⟩⟩
      · exact refl s
    · exact refl s

end Sustains

/-- The front telegram of the Uplink own-telegram queue gone, and nothing else that the invariants read of the state, but what the
bounds of that queue read. -/
structure Popped (s t : State) (x : UplinkTelegram) : Prop where
  front : s.ports.uplinkOwn = x :: t.ports.uplinkOwn
  tracker : t.tracker = s.tracker := by rfl
  guns : t.guns = s.guns := by rfl
  loader : t.loader = s.loader := by rfl
  tags : t.tags = s.tags := by rfl
  active : t.banks.active = s.banks.active := by rfl
  other : t.banks.other = s.banks.other := by rfl
  cellOwn : t.ports.cellOwn = s.ports.cellOwn := by rfl
  toCell : t.ports.toCell = s.ports.toCell := by rfl
  toUplink : t.ports.toUplink = s.ports.toUplink := by rfl

theorem Popped.recordsInUse_sublist {s t : State} {x : UplinkTelegram} (h : Popped s t x) :
    t.recordsInUse.Sublist s.recordsInUse := by
  have hq : t.queued = s.queued := by simp [State.queued, State.station, h.tracker]
  unfold State.recordsInUse State.releasing
  rw [hq, h.front]
  exact List.Sublist.append_left ((List.sublist_cons_self _ _).filterMap _) _

theorem Sustains.of_popped {s t : State} {x : UplinkTelegram} (h : Popped s t x) (hu : s.uplinkBounded → t.uplinkBounded) :
    Sustains s t := by
  have hst := State.station_congr (s := s) (t := t) (by rw [h.tracker])
  refine ⟨fun ⟨h1, h2, h3⟩ => ⟨?_, ?_, ?_⟩, fun hs st => ?_, ⟨fun hc => ?_, fun hb => ?_, fun ho st => ?_, fun hf st => ?_⟩, hu,
    fun ⟨r1, r2, r3, r4⟩ => ⟨?_, ?_, ?_, ?_⟩⟩
  · rw [h.guns]; exact h1
  · exact fun st => by rw [hst]; exact h2 st
  · rw [h.loader]; exact h3
  · rw [hst]; exact hs st
  · unfold State.cellKept State.tagState at hc ⊢
    rwa [h.cellOwn, h.tags]
  · unfold State.bankTagsKept at hb ⊢
    rw [h.active, h.other]
    exact fun r hr => hb r (h.recordsInUse_sublist.subset hr)
  · rw [hst]; exact ho st
  · rw [hst]; exact hf st
  · rw [h.toCell]; exact r1
  · rw [h.toUplink]; exact r2
  · rw [h.tracker]; exact r3
  · exact h.recordsInUse_sublist.length_le.trans r4

theorem State.uplinkOwn_of_front {s : State} {x : UplinkTelegram} (h : s.uplinkFront? = some x) :
    s.ports.uplinkOwn = x :: s.ports.uplinkOwn.tail := by
  unfold State.uplinkFront? at h
  split at h
  · exact (List.cons_head?_tail h).symm
  · cases h

/-- The bounds of the Uplink own-telegram queue and the Request Queue, the front telegram counted by itself. -/
theorem State.uplinkBounded_cons {s : State} {x : UplinkTelegram} {rest : List UplinkTelegram}
    (hx : s.ports.uplinkOwn = x :: rest) (h : s.uplinkBounded) :
    rest.countP (·.isCopy) + (if x.isCopy = true then 1 else 0) ≤ 11 ∧
      rest.countP (·.isNotice) + (if x.isNotice = true then 1 else 0) = (if s.events.noticePending then 1 else 0) ∧
      rest.countP (·.isReply) + (if x.isReply = true then 1 else 0) = s.agent.requests.countP (·.answered) ∧
      s.agent.requests.length ≤ 4 ∧ (s.agent.requests.map (·.answered)).Pairwise fun x y => y = true → x = true := by
  unfold State.uplinkBounded State.copiesWaiting at h
  rwa [hx, List.countP_cons, List.countP_cons, List.countP_cons] at h

/-- In a bounded Request Queue with an answered entry the front one is answered (R156). -/
theorem front_answered {l : List RequestEntry} (h : 0 < l.countP (·.answered))
    (hp : (l.map (·.answered)).Pairwise fun x y => y = true → x = true) :
    ∃ e rest, l = e :: rest ∧ e.answered = true := by
  obtain ⟨y, hy, ha⟩ := List.countP_pos_iff.1 h
  cases l with
  | nil => cases hy
  | cons e rest =>
    refine ⟨e, rest, rfl, ?_⟩
    rcases List.mem_cons.1 hy with rfl | hy
    · exact ha
    · rw [List.map_cons, List.pairwise_cons] at hp
      exact hp.1 _ (List.mem_map_of_mem hy) ha

namespace Sustains

theorem drainTest (s : State) : Sustains s s.drainTest :=
  of_dispatched (.drainTest s) (.drainTest s) (.drainTest s) fun h =>
    State.stationsSound_congr (by unfold State.drainTest; split <;> rfl) h

theorem releaseTransmit (s : State) : Sustains s s.releaseTransmit := by
  unfold State.releaseTransmit
  split
  · next v r hf =>
    have hx := State.uplinkOwn_of_front hf
    exact after (drainTest _) (of_popped (x := .release v r) { front := hx } fun h => State.uplinkBounded_cons hx h)
  all_goals exact refl s

/-- A REPLY transmitted takes the answered entry at the front of the Request Queue with it (R156). -/
theorem dropAnswered_takeUplink {s : State} {v : Envelope} {n : BitVec 16} {c : Octet} {r : ResultCode} {o : Octet}
    {d : List Octet} (hf : s.uplinkFront? = some (.reply v n c r o d)) :
    Sustains s (s.takeUplink (.reply v n c r o d)).dropAnswered := by
  have hx := State.uplinkOwn_of_front hf
  refine of_popped (x := .reply v n c r o d) (by
    unfold State.dropAnswered
    split
    · split <;> exact { front := hx }
    · exact { front := hx }) fun h => ?_
  obtain ⟨h1, h2, h3, h4, h5⟩ := State.uplinkBounded_cons hx h
  have h3 : s.ports.uplinkOwn.tail.countP (·.isReply) + 1 = s.agent.requests.countP (·.answered) := h3
  obtain ⟨e, rest, hr, ha⟩ := front_answered (by omega) h5
  have hd : (s.takeUplink (.reply v n c r o d)).dropAnswered =
      (s.takeUplink (.reply v n c r o d)).setAgent { s.agent with requests := rest } := by
    have hr' : (s.takeUplink (.reply v n c r o d)).agent.requests = e :: rest := hr
    simp only [State.dropAnswered, hr', ha, if_true]
    rfl
  rw [hr, List.countP_cons_of_pos (by exact ha)] at h3
  rw [hr] at h4 h5
  rw [hd]
  exact ⟨h1, h2, Nat.succ.inj h3, Nat.le_of_succ_le h4, (List.pairwise_cons.1 h5).2⟩

theorem replyTransmit (s : State) : Sustains s s.replyTransmit := by
  unfold State.replyTransmit
  split
  · next hf =>
    simp only
    split
    · exact after (restart _) (dropAnswered_takeUplink hf)
    · exact dropAnswered_takeUplink hf
  all_goals exact refl s

theorem noticeTransmit (s : State) : Sustains s s.noticeTransmit := by
  unfold State.noticeTransmit
  split
  · next hf =>
    have hx := State.uplinkOwn_of_front hf
    refine of_popped (x := .notice) { front := hx } fun h => ?_
    obtain ⟨h1, h2, h3, h4, h5⟩ := State.uplinkBounded_cons hx h
    have h2 : s.ports.uplinkOwn.tail.countP (·.isNotice) + 1 = (if s.events.noticePending then 1 else 0) := h2
    have h0 : s.ports.uplinkOwn.tail.countP (·.isNotice) = 0 := by split at h2 <;> omega
    exact ⟨h1, h0, h3, h4, h5⟩
  all_goals exact refl s

theorem copyTransmit (s : State) : Sustains s s.copyTransmit := by
  unfold State.copyTransmit
  split
  · next v c st time content hf =>
    have hx := State.uplinkOwn_of_front hf
    refine of_popped (x := .copy v c st time content) { front := hx } fun h => ?_
    obtain ⟨h1, h2, h3, h4, h5⟩ := State.uplinkBounded_cons hx h
    exact ⟨Nat.le_of_succ_le h1, h2, h3, h4, h5⟩
  all_goals exact refl s

end Sustains

end Sys2Proof.Machine
end

section
/-! What every step keeps, concluded: loads and their configuration, long operations, a millisecond, and every request. -/

namespace Sys2Proof.Machine

/-! ## Limits and modes an image or a request writes (R11, R73, R123, R143) -/

theorem Gun.inRange_withLimits {x : Gun} (h : x.inRange) {l : GunLimits} (hl : l.hardLimit ≤ 65535) :
    (x.withLimits (clampLimits l)).inRange := by
  obtain ⟨h1, h2, h3, -⟩ := h
  unfold Gun.inRange Gun.withLimits clampLimits clamp
  simp only
  refine ⟨h1, h2, h3, ?_, ?_, ?_, ?_, ?_, ?_⟩ <;> repeat' split
  all_goals omega

theorem clampReady_bounds (n : Nat) : 100 ≤ clampReady n ∧ clampReady n ≤ 30000 := by
  unfold clampReady clamp
  constructor <;> repeat' split
  all_goals omega

theorem allKinds_getD_number (k : FaultKind) : allKinds.getD k.number.val .unknownStyle = k := by cases k <;> rfl

theorem defaultModes_allowed (k : FaultKind) : k.allows defaultModes[k.number] = true := by cases k <;> rfl

theorem imageModes_allowed (codes : List Octet) (k : FaultKind) : k.allows (imageModes codes)[k.number] = true := by
  simp only [imageModes, tabulate, Fin.getElem_fin, Vector.getElem_ofFn, allKinds_getD_number]
  split
  · split
    · next h => exact h
    · exact defaultModes_allowed k
  · exact defaultModes_allowed k

theorem imageStation_inRange {x : Station} (h : x.settingsInRange) (c : ImageConfig) (shaped : Bool) (st : StationId) :
    (imageStation c shaped st x).settingsInRange := by
  obtain ⟨h1, h2, h3, h4, h5⟩ := h
  unfold imageStation
  split
  · next limit codes _ =>
    obtain ⟨c1, c2⟩ := clampReady_bounds limit
    exact ⟨c1, c2, h3, h4, fun k _ => imageModes_allowed codes k⟩
  · split
    · exact ⟨by simp, by simp, h3, h4, fun k _ => defaultModes_allowed k⟩
    · exact ⟨h1, h2, h3, h4, h5⟩

theorem imageGun_inRange {x : Gun} (h : x.inRange) {c : ImageConfig} (hc : ∀ l ∈ c.guns, l.hardLimit ≤ 65535) (shaped : Bool)
    (g : SlotId) : (imageGun c shaped g x).inRange := by
  unfold imageGun
  split
  · next l hl =>
    refine Gun.inRange_withLimits h (hc l ?_)
    unfold imageLimits? at hl
    split at hl
    · exact List.mem_of_getElem? hl
    · cases hl
  · split
    · have := Gun.inRange_withLimits h (l := defaultLimits) (by decide)
      exact this
    · exact h

theorem FaultKind.number_injective {k k' : FaultKind} (h : k.number = k'.number) : k = k' := by
  rw [← allKinds_getD_number k, h, allKinds_getD_number]

theorem writeModes_allowed {pairs : List (FaultKind × FaultMode)} (hp : ∀ x ∈ pairs, x.1.allows x.2 = true)
    {modes : Vector FaultMode 9} (h : ∀ k ∈ allKinds, k.allows modes[k.number] = true) :
    ∀ k ∈ allKinds, k.allows (writeModes modes pairs)[k.number] = true := by
  unfold writeModes
  induction pairs generalizing modes with
  | nil => exact h
  | cons x rest ih =>
    refine ih (fun y hy => hp y (List.mem_cons_of_mem _ hy)) fun k hk => ?_
    by_cases e : x.1.number = k.number
    · have hx := hp x List.mem_cons_self
      obtain rfl := FaultKind.number_injective e
      simpa using hx
    · have hne : x.1.number.val ≠ k.number.val := fun h => e (Fin.ext h)
      simpa [Vector.getElem_set_ne _ _ hne] using h k hk

/-! ## Loads (R183, R184) -/

theorem readGuns_hardLimit {n : Nat} {os rest : List Octet} {l : List GunLimits} (h : readGuns n os = some (l, rest)) :
    ∀ x ∈ l, x.hardLimit ≤ 65535 := by
  obtain ⟨y, -, -, rfl⟩ := readGuns_eq_some.1 h
  intro x hx
  obtain ⟨z, -, rfl⟩ := List.mem_map.1 hx
  have := z.2.1.isLt
  simp only
  omega

theorem readConfig_hardLimit {os rest : List Octet} {c : ImageConfig} (h : readConfig os = some (c, rest)) :
    ∀ x ∈ c.guns, x.hardLimit ≤ 65535 := by
  obtain ⟨_, _, _, _, _, _, _, _, _, guns, -, -, -, -, -, -, rfl⟩ := readConfig_eq_some.1 h
  intro x hx
  obtain ⟨z, -, rfl⟩ := List.mem_map.1 hx
  have := z.2.1.isLt
  simp only
  omega

theorem Loader.limitsFit_congr {l m : Loader} (h : m.config = l.config) (hl : l.limitsFit) : m.limitsFit := by
  unfold Loader.limitsFit at hl ⊢
  rwa [h]

theorem loadRecord_config (flash : List Octet) (l : Loader) (t : Tables) : (loadRecord flash l t).1.config = l.config := by
  unfold loadRecord Loader.fail
  dsimp only
  repeat' split
  all_goals rfl

theorem loadFinish_config (flash : List Octet) (l : Loader) (h : ImageHeader) : (loadFinish flash l h).config = l.config := by
  unfold loadFinish Loader.fail
  dsimp only
  split <;> rfl

theorem limitsFit_loadUnit {flash : List Octet} {x : Loader × Tables} (h : x.1.limitsFit) :
    (loadUnit flash x).1.limitsFit := by
  unfold loadUnit
  simp only
  split
  · split
    · exact Loader.limitsFit_congr rfl h
    · exact Loader.limitsFit_congr rfl h
  · split
    · next c hc =>
      split
      · intro c' hc'
        obtain rfl : c = c' := by simpa using hc'
        exact readConfig_hardLimit hc
      · exact Loader.limitsFit_congr rfl h
    · exact Loader.limitsFit_congr rfl h
    · exact Loader.limitsFit_congr rfl h
  · split
    · exact Loader.limitsFit_congr (loadRecord_config _ _ _) h
    · split
      · exact Loader.limitsFit_congr (loadFinish_config _ _ _) h
      · exact Loader.limitsFit_congr rfl h
  · exact Loader.limitsFit_congr rfl h
  · exact Loader.limitsFit_congr rfl h
  · exact h
  · exact h

theorem limitsFit_loadUnits {flash : List Octet} (n : Nat) {x : Loader × Tables} (h : x.1.limitsFit) :
    (loadUnits flash n x).1.limitsFit := by
  induction n generalizing x with
  | zero => exact h
  | succ n ih =>
    unfold loadUnits
    split
    · exact h
    · exact ih (limitsFit_loadUnit h)

@[simp] theorem Banks.setTables_active (x : Banks) (i : BankId) (t : Tables) : (x.setTables i t).active = x.active := by
  cases i <;> rfl

@[simp] theorem Banks.setTables_other (x : Banks) (i : BankId) (t : Tables) : (x.setTables i t).other = x.other := by
  cases i <;> rfl

theorem Aside.advanceLoad (s : State) (n : Nat) : Aside s (s.advanceLoad n) where
  config := limitsFit_loadUnits (x := (s.loader, s.banks.tables s.loadTarget)) n
  banks := fun r _ h => by simpa [State.advanceLoad] using h

theorem Aside.finishLoad (s : State) (answers : Bool) : Aside s (s.finishLoad answers) := by
  unfold State.finishLoad
  split
  · exact .advanceLoad s _
  · split
    · exact {}
    · exact { config := Loader.limitsFit_congr rfl }

/-- A shape applied drops the CANCELs of the slots that lose their tag state (R162). -/
theorem cellKept_applyShape {s : State} (x : Shape) (h : s.cellKept) : (s.applyShape x).cellKept := by
  obtain ⟨h1, h2⟩ := h
  refine ⟨h1.sublist (List.filter_sublist.map _), fun y hy => ?_⟩
  have hy' : y ∈ s.ports.cellOwn := (List.mem_filter.1 hy).1
  have ht : (s.applyShape x).tagState y.slot = if s.shapeResets x y.slot = true then TagState.reset else s.tagState y.slot := by
    simp [State.applyShape, State.tagState, tabulate]
  rw [ht]
  split
  · intro hc
    exact absurd rfl hc
  · exact h2 y hy'

theorem Aside.applyShape (s : State) (x : Shape) : Aside s (s.applyShape x) := by
  have h := cellKept_applyShape (s := s) x
  rw [State.applyShape_eq] at h ⊢
  exact { cells := h }

theorem State.station_applySettings (s : State) (c : ImageConfig) (shaped : Bool) (st : StationId) :
    (s.applySettings c shaped).station st = imageStation c shaped st (s.station st) := by
  simp [State.applySettings, State.station, tabulate]

theorem imageStation_queue (c : ImageConfig) (shaped : Bool) (st : StationId) (x : Station) :
    (imageStation c shaped st x).queue = x.queue ∧ (imageStation c shaped st x).state = x.state := by
  unfold imageStation
  split
  · exact ⟨rfl, rfl⟩
  · split <;> exact ⟨rfl, rfl⟩

theorem Aside.applySettings (s : State) {c : ImageConfig}
    (hc : s.loader.limitsFit → ∀ l ∈ c.guns, l.hardLimit ≤ 65535) (shaped : Bool) :
    Aside s (s.applySettings c shaped) where
  stations := fun st => by
    rw [State.station_applySettings]
    exact imageStation_queue c shaped st _
  limits := fun st h => by
    rw [State.station_applySettings]
    exact imageStation_inRange h c shaped st
  guns := fun hl g h => by
    have := imageGun_inRange h (hc hl) shaped g
    simpa [State.applySettings, tabulate, State.gun] using this

/-- The configuration that a load has read applied (R184). -/
theorem Sustains.applyConfig {s : State} {c : ImageConfig} (hc : s.loader.config = some c) (shaped : Bool) :
    Sustains s (s.applyConfig c shaped) := by
  have hc : s.loader.limitsFit → ∀ l ∈ c.guns, l.hardLimit ≤ 65535 := fun h => h c hc
  unfold State.applyConfig
  split
  · have hl : (s.applyShape c.shape).loader = s.loader := by
      rw [State.applyShape_eq]
      rfl
    exact .after (.of_aside (.applySettings _ (by rwa [hl]) _)) (.of_aside (.applyShape s _))
  · exact .of_aside (.applySettings s hc _)

end Sys2Proof.Machine
end

section
/-! What every step keeps, concluded: long operations, a millisecond, every request, and the three invariants of every step. -/

namespace Sys2Proof.Machine

namespace Sustains

/-! ## Long operations and the power-up load (R42 to R47, R185 to R187) -/

theorem completeCopy (s : State) : Sustains s s.completeCopy := by
  unfold State.completeCopy
  split
  · exact of_aside { banks := fun r _ h => by simpa using h }
  · exact refl s

theorem testEvery (s : State) : Sustains s s.testEvery :=
  of_dispatched (.testEvery s) (.testEvery s) (.testEvery s) stationsSound_testEvery

/-- The banks switched: every record carries the tag of the bank that drains, or there is none (R47). -/
theorem switchBanks {s : State} (hv : s.banks.other = .validating) : Sustains s s.switchBanks := by
  unfold State.switchBanks
  simp only
  generalize hu : (State.freeSlot _) = u
  have k : Sustains s u := by
    rw [← hu]
    refine of_aside { banks := fun r hr h => ?_ }
    have ht : r.bankTag = s.banks.active := h.resolve_right (by rw [hv]; decide)
    simp only [State.freeSlot_banks, State.setFlag_banks, State.setBanks_banks]
    split
    · next h0 => exact absurd (by simpa using ht) (List.countP_eq_zero.1 h0 r hr)
    · exact .inr rfl
  split
  · exact k
  · exact after (testEvery _) k

theorem endValidation (s : State) : Sustains s s.endValidation := by
  unfold State.endValidation
  split
  · next h =>
    obtain ⟨-, hv⟩ := Bool.and_eq_true_iff.1 h
    have hv : s.banks.other = .validating := by simpa using hv
    split
    · exact of_aside { banks := fun r _ h => .inl (h.resolve_right (by rw [hv]; decide)) }
    · exact switchBanks hv
  · exact refl s

theorem endImage (s : State) : Sustains s s.endImage := of_aside { config := fun _ => Loader.limitsFit_of_none rfl }

theorem endStore (s : State) (confirmed : Bool) : Sustains s (s.endStore confirmed) := by
  unfold State.endStore
  split
  · split
    · exact after (endImage _) (of_aside {})
    · exact after (endImage _) (of_aside {})
  · exact refl s

theorem applyLoaded (s : State) : Sustains s s.applyLoaded := by
  unfold State.applyLoaded
  split
  · next c _ hc => exact testAfterHold (applyConfig hc _)
  · exact refl s
  · exact refl s

theorem endLoad (s : State) (answers : Bool) : Sustains s (s.endLoad answers) := by
  unfold State.endLoad
  split
  · refine after ?_ (of_aside (.finishLoad s answers))
    unfold State.loadEnds
    split
    · exact after (endImage _) (after (of_aside {}) (applyLoaded _))
    · exact after (endImage _) (of_aside {})
  · exact refl s

theorem powerUpFails (s : State) (report : ValidationReport) : Sustains s (s.powerUpFails report) :=
  of_aside { banks := fun r _ h => by simpa [State.powerUpFails] using h }

theorem powerUpPasses (s : State) (report : ValidationReport) : Sustains s (s.powerUpPasses report) := by
  unfold State.powerUpPasses
  simp only
  split
  · next c hc =>
    have marked : Sustains s (s.setBanks { s.banks with validated := true, report := report }) := of_aside {}
    have applied := applyConfig (s := s.setBanks { s.banks with validated := true, report := report }) hc true
    exact after (of_aside {}) (after applied marked)
  · exact of_aside {}

theorem endPowerUpLoad (s : State) (answers : Bool) : Sustains s (s.endPowerUpLoad answers) := by
  unfold State.endPowerUpLoad
  split
  · have idled : ∀ u : State, Sustains u (u.setLoader (Loader.start .idle)) := fun u =>
      of_aside { config := fun _ => Loader.limitsFit_of_none rfl }
    refine after (idled _) (after ?_ (of_aside (.finishLoad s answers)))
    unfold State.powerUpEnds
    split
    · split
      · exact powerUpPasses _ _
      · exact powerUpFails _ _
    · exact powerUpFails _ _
  · exact refl s

/-! ## A millisecond (R42, R182) -/

theorem advanceCopy (s : State) (n : Nat) : Sustains s (s.advanceCopy n) := by
  unfold State.advanceCopy
  split
  · exact refl s
  · exact of_aside { banks := fun r _ h => by simpa using h }

theorem tick (s : State) : Sustains s (Machine.tick s) := by
  have timed : Sustains s (s.setLineTime (s.lineTime + 1)) := of_aside {}
  have counted : ∀ t : State, Sustains t (t.setFree (s.free + 1)) := fun t => of_aside {}
  unfold Machine.tick
  simp only
  split
  · exact after (counted _) (after (advanceCopy _ _) timed)
  · split
    · exact timed
    · exact after (counted _) (after (of_aside (.advanceLoad _ _)) timed)
    · exact after (counted _) (after (of_aside (.advanceLoad _ _)) timed)
    · have written : ∀ (u : State) (n : Nat), Sustains u (u.advanceStore n) := fun u n =>
        of_aside { config := Loader.limitsFit_congr rfl }
      exact after (counted _) (after (written _ _) timed)

end Sustains

/-! ## Requests (R157, R158) -/

/-- An executed request keeps the invariants, and the Request Queue as it stands until its REPLY is built. -/
structure Answered (s : State) (a : Answer) : Prop where
  sustains : Sustains s a.state
  requests : a.state.agent.requests = s.agent.requests

/-- A timer that runs out (R103, R104). -/
theorem Restores.readyExpires {s : State} {g : SlotId} (h : (s.station (stationOf g)).sound) :
    Restores (stationOf g) s (s.readyExpires g) := by
  unfold State.readyExpires
  split
  · have k := Restores.takeTimeout (s := s.setTag g { s.tagState g with readyTimer := none }) g .readyTimeout h
    exact ⟨k.others, k.sound⟩
  · exact .refl h

theorem Restores.cycleExpires {s : State} {g : SlotId} (h : (s.station (stationOf g)).sound) :
    Restores (stationOf g) s (s.cycleExpires g) := by
  unfold State.cycleExpires
  split
  · have k := Restores.takeTimeout (s := s.setTag g { s.tagState g with cycleTimer := none }) g .cycleTimeout h
    exact ⟨k.others, k.sound⟩
  · exact .refl h

namespace Answered

theorem result (s : State) (r : ResultCode) : Answered s (s.result r) := ⟨.refl s, rfl⟩

theorem of_self (s : State) (r : ResultCode) (data : List Octet) : Answered s ⟨s, r, data⟩ := ⟨.refl s, rfl⟩

theorem of_aside {s t : State} (h : Aside s t) (r : ResultCode) (data : List Octet) : Answered s ⟨t, r, data⟩ :=
  ⟨.of_aside h, h.requests⟩

theorem of_dispatched {s t : State} (d : Dispatched s t) (k : Sustains s t) (r : ResultCode) (data : List Octet) :
    Answered s ⟨t, r, data⟩ := ⟨k, by rw [d.agent]⟩

theorem readBody (s : State) (station position : Octet) : Answered s (s.answerReadBody station position) := by
  unfold State.answerReadBody
  split
  · exact result _ _
  · split
    · exact result _ _
    · split
      · exact result _ _
      · exact of_self _ _ _

theorem readTable (s : State) (bank table : Octet) (first count : BitVec 16) :
    Answered s (s.answerReadTable bank table first count) := by
  unfold State.answerReadTable
  split
  · split
    · exact of_self _ _ _
    · exact result _ _
  · exact result _ _

theorem readGun (s : State) (first count : Octet) : Answered s (s.answerReadGun first count) := by
  unfold State.answerReadGun
  split
  · exact result _ _
  · exact of_self _ _ _

theorem readCounters (s : State) (clear : Octet) : Answered s (s.answerReadCounters clear) := by
  unfold State.answerReadCounters
  split
  · exact result _ _
  · split
    · refine of_aside { stations := fun st => ?_, limits := fun st h => ?_ } _ _
      · simp [State.clearCounters, State.station, mapVector]
      · simpa [State.clearCounters, State.station, mapVector, Station.settingsInRange] using h
    · exact of_self _ _ _

theorem setTables (s : State) (i : BankId) (t : Tables) (r : ResultCode) : Answered s ((s.setTables i t).result r) :=
  of_aside { banks := fun r _ h => by simpa [State.setTables] using h } _ _

theorem writeTable (s : State) (bank table : Octet) (first count : BitVec 16) (records : List Octet) :
    Answered s (s.answerWriteTable bank table first count records) := by
  unfold State.answerWriteTable
  split
  · split
    · split
      · unfold State.writeRun
        split
        · exact result _ _
        · split
          · exact of_self _ _ _
          · exact setTables _ _ _ _
      · exact result _ _
    · exact result _ _
  · exact result _ _

theorem writeBlock (s : State) (bank r1 r2 c1 c2 form : Octet) (cells : List Octet) :
    Answered s (s.answerWriteBlock bank r1 r2 c1 c2 form cells) := by
  unfold State.answerWriteBlock
  simp only
  split
  · split
    · unfold State.writeBlock
      split
      · exact result _ _
      · split
        · exact of_self _ _ _
        · exact setTables _ _ _ _
    · exact result _ _
  · exact result _ _

theorem clearBank (s : State) (bank : Octet) : Answered s (s.answerClearBank bank) := by
  unfold State.answerClearBank
  split
  · exact result _ _
  · split
    · exact result _ _
    · exact of_aside { banks := fun r _ h => by simpa using h } _ _


/-- What COPY BANK, SWAP and LOAD IMAGE find once their first checks have passed (R41, R43, R187). -/
theorem other_of_fillRefusal {s : State} (h : s.fillRefusal = none) : s.banks.other = .shadow := by
  unfold State.fillRefusal at h
  split at h
  · cases h
  · split at h
    · cases h
    · next ho => exact not_not.1 ho

theorem copyBank (s : State) : Answered s s.answerCopyBank := by
  unfold State.answerCopyBank
  split
  · exact result _ _
  · exact of_aside {} _ _

theorem swap (s : State) : Answered s s.answerSwap := by
  unfold State.answerSwap
  split
  · exact result _ _
  · next h =>
    split
    · exact result _ _
    · have begun : Aside s ((s.takeSlot .swap).setBanks { s.banks with other := .validating }) :=
        { banks := fun r _ hr => .inl (hr.resolve_right (by rw [other_of_fillRefusal h]; decide)) }
      exact of_aside begun _ _

theorem loadImage (s : State) : Answered s s.answerLoadImage := by
  unfold State.answerLoadImage
  split
  · exact result _ _
  · exact of_aside
      { banks := fun r _ h => by simpa [State.setTables] using h
        config := fun _ => Loader.limitsFit_of_none rfl } _ _

theorem storeImage (s : State) : Answered s s.answerStoreImage := by
  unfold State.answerStoreImage
  split
  · exact result _ _
  · exact of_aside { config := fun _ => Loader.limitsFit_of_none rfl } _ _

/-- A station that is neither DISPATCHING nor HELD moved to OFFLINE, IDLE or MANUAL with its settings (R10, R11). -/
theorem moveStation {s : State} {st : StationId} {mode : StationState} (dry : Bool) (limit : Nat)
    (hs : (s.station st).state ≠ .dispatching ∧ (s.station st).state ≠ .held) (hm : mode ≠ .dispatching ∧ mode ≠ .held) :
    Sustains s (s.setStation st { s.station st with state := mode, dry := dry, readyLimit := clampReady limit }) := by
  generalize hx : ({ s.station st with state := mode, dry := dry, readyLimit := clampReady limit } : Station) = x
  have hq : x.queue = (s.station st).queue := by rw [← hx]
  have hlen := s.length_recordsInUse_setStation st x
  refine ⟨fun ⟨h1, h2, h3⟩ => ⟨h1, fun st' => ?_, h3⟩, fun h => ?_, ?_, id, fun ⟨r1, r2, r3, r4⟩ => ⟨r1, r2, r3, ?_⟩⟩
  · by_cases e : st' = st
    · rw [e, State.station_setStation_self, ← hx]
      obtain ⟨-, -, h⟩ := h2 st
      obtain ⟨l1, l2⟩ := clampReady_bounds limit
      exact ⟨l1, l2, h⟩
    · rw [State.station_setStation_ne _ _ e]
      exact h2 st'
  · refine (Restores.setStation ?_).stationsSound h
    obtain ⟨hqs, hss, -⟩ := (Station.sound_iff _).1 (h st)
    have hn : (s.station st).head? = none := by
      rw [← Option.not_isSome_iff_eq_none, ← hss]
      exact fun h => h.elim hs.1 hs.2
    refine (Station.sound_iff _).2 ⟨?_, ?_⟩
    · unfold Station.queueSound at hqs ⊢
      rwa [hq]
    · rw [Station.stateSound_iff_of_no_head (by rw [← hn]; unfold Station.head?; rw [hq]), ← hx]
      exact hm
  · exact .setStation s st x (by rw [hq]; exact fun y hy => ⟨y, hy, rfl, fun _ => rfl⟩) (by rw [hq]; exact id)
  · rw [hq] at hlen
    omega

theorem stationModeOf?_ne {o : Octet} {m : StationState} (h : stationModeOf? o = some m) :
    m ≠ .dispatching ∧ m ≠ .held := by
  unfold stationModeOf? at h
  split at h <;> cases h <;> decide

theorem setStationMode {s : State} {st : StationId} {mode : StationState} {dry : Bool} (limit : Nat)
    (hr : s.stationRefusal st mode dry = none) (hm : mode ≠ .dispatching ∧ mode ≠ .held) (r : ResultCode) (data : List Octet) :
    Answered s ⟨s.setStationMode st mode dry limit, r, data⟩ := by
  have hs : (s.station st).state ≠ .dispatching ∧ (s.station st).state ≠ .held := by
    unfold State.stationRefusal at hr
    simp only at hr
    split at hr
    · cases hr
    · next h => exact not_or.1 h
  have k := moveStation dry limit hs hm
  unfold State.setStationMode State.testIfIdled
  split
  · refine ⟨.after (.of_restores (.testStation ..) (.testStation ..) (.testStation ..) .testStation) k, ?_⟩
    rw [(Dispatched.testStation _ st).agent]
    rfl
  · exact ⟨k, rfl⟩

theorem setStation (s : State) (station mode dry : Octet) (limit : BitVec 16) :
    Answered s (s.answerSetStation station mode dry limit) := by
  unfold State.answerSetStation
  split
  · next st m d _ hm _ =>
    split
    · exact result _ _
    · next hr =>
      simp only
      split
      · exact setStationMode _ hr (stationModeOf?_ne hm) _ _
      · exact setStationMode _ hr (stationModeOf?_ne hm) _ _
  · exact result _ _

theorem setFaultModes (s : State) (station : Octet) (pairs : List (Octet × Octet)) :
    Answered s (s.answerSetFaultModes station pairs) := by
  unfold State.answerSetFaultModes
  split
  · next st l _ _ =>
    split
    · next hp =>
      have hp : ∀ x ∈ l, x.1.allows x.2 = true := by
        unfold pairsAllowed at hp
        simp only [Bool.and_eq_true, List.all_eq_true] at hp
        obtain ⟨⟨-, hp⟩, -⟩ := hp
        exact hp
      refine of_aside { stations := fun st' => ?_, limits := fun st' h => ?_ } _ _
      · by_cases e : st' = st
        · rw [e, State.station_setStation_self]
          exact ⟨rfl, rfl⟩
        · rw [State.station_setStation_ne _ _ e]
          exact ⟨rfl, rfl⟩
      · by_cases e : st' = st
        · rw [e] at h ⊢
          rw [State.station_setStation_self]
          obtain ⟨h1, h2, h3, h4, h5⟩ := h
          exact ⟨h1, h2, h3, h4, writeModes_allowed hp h5⟩
        · rw [State.station_setStation_ne _ _ e]
          exact h
    · exact result _ _
  · exact result _ _

theorem setHoldScope (s : State) (scope : Octet) : Answered s (s.answerSetHoldScope scope) := by
  unfold State.answerSetHoldScope
  split
  · exact result _ _
  · next scope _ =>
    have written : Sustains s (s.setScope scope) := .of_aside {}
    refine ⟨.testAfterHold written, ?_⟩
    have d : Dispatched (s.setScope scope) (Machine.testAfterHold s (s.setScope scope) (s.setScope scope)) :=
      .testAfterHold (.refl _)
    exact congrArg (·.requests) d.agent

theorem clearStation (s : State) (station option : Octet) : Answered s (s.answerClearStation station option) := by
  unfold State.answerClearStation
  split
  · next st o _ _ =>
    split
    · next hs =>
      exact of_dispatched (.clearStation s st o) (.of_dispatched (.clearStation ..) (.clearStation ..) (.clearStation ..)
        fun h => stationsSound_clearStation o h (Station.isSome_head?_of_held (h st) hs)) _ _
    · exact result _ _
  · exact result _ _

/-- A withdrawal, refused or carried out, leaves the Request Queue. -/
theorem withdrawBody (s : State) (bodyId : BodyId) (station : Octet) : Answered s (s.answerWithdrawBody bodyId station) := by
  refine ⟨.withdrawBody s bodyId station, ?_⟩
  show (s.withdrawBody bodyId station).1.agent.requests = _
  unfold State.withdrawBody
  split
  · rfl
  · split
    · rfl
    · simp only
      split
      · rw [(Dispatched.withdrawHead _ _).agent]
      · rw [(Dispatched.withdrawQueued _ _ _).agent]

/-- A gun request writes one gun, and keeps it in range (R76 to R79). -/
theorem onGun (s : State) (slot : Octet) {op : SlotId → Answer} (h : ∀ g, Answered s (op g)) :
    Answered s (s.onGun slot op) := by
  unfold State.onGun
  split
  · exact result _ _
  · split
    · exact result _ _
    · exact h _

theorem writeGun (s : State) (g : SlotId) {x : Gun} (h : (s.gun g).inRange → x.inRange) (r : ResultCode)
    (data : List Octet) : Answered s ⟨s.setGun g x, r, data⟩ :=
  of_aside { guns := fun _ => (Dispatched.setGun s g x h).guns } r data

theorem bump_le {n : Nat} (h : n ≤ 65535) : bump n ≤ 65535 := by
  unfold bump
  split <;> omega

theorem setGun (s : State) (slot : Octet) (dress hard ceiling : BitVec 16) :
    Answered s (s.answerSetGun slot dress hard ceiling) := by
  have hg : ∀ x : Gun, x.inRange → (x.set (clampLimits ⟨dress.toNat, hard.toNat, ceiling.toNat⟩)).inRange := fun x hx =>
    Gun.inRange_withLimits hx (l := ⟨dress.toNat, hard.toNat, ceiling.toNat⟩) (by have := hard.isLt; simp only; omega)
  refine onGun s slot fun g => ?_
  simp only
  split
  · exact writeGun s g (hg _) _ _
  · exact writeGun s g (hg _) _ _

theorem setWear (s : State) (slot : Octet) (wear : BitVec 16) : Answered s (s.answerSetWear slot wear) :=
  onGun s slot fun g => writeGun s g (x := (s.gun g).setWear wear.toNat)
    (fun ⟨_, h⟩ => ⟨by have := wear.isLt; simp only [Gun.setWear]; omega, h⟩) _ _

theorem resetWear (s : State) (slot : Octet) : Answered s (s.answerResetWear slot) :=
  onGun s slot fun g => writeGun s g (x := (s.gun g).resetWear)
    (fun ⟨_, h2, h3, h⟩ => ⟨by simp only [Gun.resetWear]; omega, h2, bump_le h3, h⟩) _ _

theorem clearEvents (s : State) (mask : BitVec 32) : Answered s (s.answerClearEvents mask) := by
  unfold State.answerClearEvents
  split
  · exact result _ _
  · exact of_aside {} _ _

theorem setEventEnable (s : State) (enables : BitVec 32) : Answered s (s.answerSetEventEnable enables) := by
  unfold State.answerSetEventEnable
  split
  · exact result _ _
  · exact of_aside {} _ _

theorem setMirror (s : State) (channel option trigger mask : Octet) (destination : Node) (form count : Octet) :
    Answered s (s.answerSetMirror channel option trigger mask destination form count) := by
  unfold State.answerSetMirror
  split
  · exact of_aside {} _ _
  · split
    · simp only
      split
      · exact result _ _
      · exact of_aside {} _ _
    · exact result _ _
  · exact result _ _

theorem configure (s : State) (x : Shape) : Answered s (s.answerConfigure x) := by
  unfold State.answerConfigure
  split
  · exact result _ _
  · exact of_aside (.applyShape s x) _ _

theorem goLive (s : State) : Answered s s.answerGoLive := by
  unfold State.answerGoLive
  split
  · exact result _ _
  · split
    · exact result _ _
    · exact of_aside {} _ _

/-- Every request keeps the invariants and leaves the Request Queue. -/
theorem answer (s : State) (i : Instr) : Answered s (s.answer i) := by
  cases i with
  | readStatus => exact of_self _ _ _
  | readBody station position => exact readBody ..
  | readTable bank table first count => exact readTable ..
  | readGun first count => exact readGun ..
  | readCounters clear => exact readCounters ..
  | readRefusals => exact of_self _ _ _
  | writeTable bank table first count records => exact writeTable ..
  | writeBlock bank r1 r2 c1 c2 form cells => exact writeBlock ..
  | clearBank bank => exact clearBank ..
  | copyBank => exact copyBank s
  | swap => exact swap s
  | setStation station mode dry limit => exact setStation ..
  | setFaultModes station pairs => exact setFaultModes ..
  | setHoldScope scope => exact setHoldScope ..
  | clearStation station option => exact clearStation ..
  | withdrawBody bodyId station => exact withdrawBody ..
  | setGun slot dress hard ceiling => exact setGun ..
  | setWear slot wear => exact setWear ..
  | resetWear slot => exact resetWear ..
  | clearEvents mask => exact clearEvents ..
  | setEventEnable enables => exact setEventEnable ..
  | setMirror channel option trigger mask destination form count => exact setMirror ..
  | configure protocolType own controller tracker stationCount slotCounts robotNodes => exact configure ..
  | goLive => exact goLive s
  | storeImage => exact storeImage s
  | loadImage => exact loadImage s
  | _ => exact result _ _

end Answered

/-! ## The REPLY (R156, R158) -/

theorem countP_answerFront {l : List RequestEntry} {e : RequestEntry} (h : (l.find? fun e => !e.answered) = some e) :
    (answerFront l).countP (·.answered) = l.countP (·.answered) + 1 := by
  induction l with
  | nil => cases h
  | cons x rest ih =>
    unfold answerFront
    by_cases hx : x.answered = true
    · rw [List.find?_cons_of_neg (by simp [hx])] at h
      simp [hx, ih h]
    · simp [hx]

theorem length_answerFront (l : List RequestEntry) : (answerFront l).length = l.length := by
  induction l with
  | nil => rfl
  | cons x rest ih =>
    unfold answerFront
    split <;> simp [ih]

theorem pairwise_answerFront {l : List RequestEntry}
    (h : (l.map (·.answered)).Pairwise fun x y => y = true → x = true) :
    ((answerFront l).map (·.answered)).Pairwise fun x y => y = true → x = true := by
  induction l with
  | nil => exact h
  | cons x rest ih =>
    rw [List.map_cons, List.pairwise_cons] at h
    unfold answerFront
    split
    · next hx => exact List.pairwise_cons.2 ⟨fun _ _ _ => hx, ih h.2⟩
    · exact List.pairwise_cons.2 ⟨fun _ _ _ => rfl, h.2⟩

namespace Sustains

/-- The front waiting entry answered and its REPLY placed. -/
theorem replied {s : State} {e e' : RequestEntry} (h : s.frontWaiting? = some e') (r : ResultCode) (data : List Octet) :
    Sustains s (s.replied e r data) := by
  have hrec : (s.replied e r data).recordsInUse = s.recordsInUse := by
    simp [State.recordsInUse, State.queued, State.station, State.releasing, State.replied, UplinkTelegram.releaseRecord?]
  refine ⟨id, id, ⟨id, fun hb => ?_, id, id⟩, fun ⟨h1, h2, h3, h4, h5⟩ => ⟨?_, ?_, ?_, ?_, ?_⟩, fun ⟨r1, r2, r3, r4⟩ => ?_⟩
  · unfold State.bankTagsKept at hb ⊢
    rwa [hrec]
  · simpa [State.replied, State.copiesWaiting, UplinkTelegram.isCopy] using h1
  · show List.countP _ (s.ports.uplinkOwn ++ _) = if s.events.noticePending = true then 1 else 0
    rw [List.countP_append, h2]
    rfl
  · show List.countP _ (s.ports.uplinkOwn ++ _) = (answerFront s.agent.requests).countP _
    rw [countP_answerFront h, List.countP_append, h3]
    rfl
  · exact (length_answerFront _).trans_le h4
  · exact pairwise_answerFront h5
  · exact ⟨r1, r2, r3, by rw [hrec]; exact r4⟩

theorem runRequest (s : State) (i : Instr) {op : State → Answer} (h : Answered s (op s)) :
    Sustains s (s.runRequest i op) := by
  unfold State.runRequest
  split
  · next e he =>
    split
    · rw [Answer.reply_eq]
      refine after (replied (e' := e) ?_ _ _) h.sustains
      unfold State.frontWaiting? at he ⊢
      rwa [h.requests]
    · exact refl s
  · exact refl s

/-! ## Every command and every step -/

/-- The effect of every command keeps the invariants. -/
theorem effect (i : Instr) (s : State) : Sustains s (Machine.effect i s) := by
  cases i with
  | powerUpReset => exact powerUp s
  | powerUpLoadEnd answers => exact endPowerUpLoad s answers
  | linkUp port => exact setLink s port true
  | linkDown port => exact setLink s port false
  | frameReceive port good frame => exact receiveFrame s port good frame
  | announce source bodyId station origin style options variant =>
    exact fromSource _ _ _ _ (take := (·.takeAnnounce ..)) (takeAnnounce ..)
  | withdraw source bodyId station => exact fromSource _ _ _ _ (take := (·.takeWithdraw ..)) (takeWithdraw ..)
  | request source number code params => exact fromSource _ _ _ _ (take := (·.takeRequest ..)) (takeRequest ..)
  | ready source tag verdict reason program =>
    exact fromSource _ _ _ _ (take := fun s => s.forRobot ..) (forRobot _ _ fun g => takeReady ..)
  | done source tag spots quality dressed =>
    exact fromSource _ _ _ _ (take := fun s => s.forRobot ..) (forRobot _ _ fun g => takeDone ..)
  | readyTimeout slot => exact of_restores (.readyExpires ..) (.readyExpires ..) (.readyExpires ..) .readyExpires
  | cycleTimeout slot => exact of_restores (.cycleExpires ..) (.cycleExpires ..) (.cycleExpires ..) .cycleExpires
  | selectTransmit => exact selectTransmit s
  | cancelTransmit => exact cancelTransmit s
  | releaseTransmit => exact releaseTransmit s
  | replyTransmit => exact replyTransmit s
  | noticeTransmit => exact noticeTransmit s
  | copyTransmit => exact copyTransmit s
  | forwardTransmit port => exact forwardTransmit s port
  | copyBankComplete => exact completeCopy s
  | validationEnd => exact endValidation s
  | storeImageEnd confirmed => exact endStore s confirmed
  | loadImageEnd answers => exact endLoad s answers
  | _ =>
    rw [effect_request rfl]
    exact runRequest s _ (Answered.answer s _)

end Sustains

/-- Every step keeps the invariants of settings, stations and queues. -/
theorem sustains_of_step {s t : State} (h : step s = .next t) : Sustains s t := by
  rcases step_cases h with ⟨-, rfl⟩ | ⟨c, rest, -, rfl⟩
  · exact Sustains.tick s
  · have taken : Sustains s (s.withPending rest) := .of_aside {}
    exact .after (Sustains.settleNotice _ _) (.after (Sustains.effect c _) taken)

/-- At one telegram for each of the 32 slots the Cell own-telegram queue is within its room (R98). -/
theorem length_cellOwn_le {s : State} (h : s.cellKept) : s.ports.cellOwn.length ≤ 32 := by
  have := h.1.length_le_card
  simpa using this

end Sys2Proof.Machine

section

open Sys2Proof Sys2Proof.Machine

/-- Settles O7: the settings that every operation keeps in range (`Sustains`). -/
theorem everyStepKeepsSettingsInRange : Obligations.EveryStepKeepsSettingsInRange :=
  fun _ _ hs h => (sustains_of_step h).settings hs

/-- Settles O8: every operation leaves the stations it touches sound (`Restores`), and keeps order and QUEUED records (`Keeps`). -/
theorem everyStepKeepsStationsSound : Obligations.EveryStepKeepsStationsSound := fun _ _ h =>
  have k := sustains_of_step h
  ⟨k.sound, k.keeps.order, k.keeps.fresh⟩

/-- Settles O9: every operation keeps the queues within their room, and the Cell queue at one telegram for a slot. -/
theorem everyStepKeepsQueuesWithinRoom : Obligations.EveryStepKeepsQueuesWithinRoom := fun _ _ h =>
  have k := sustains_of_step h
  ⟨fun hu hr => ⟨k.uplink hu, k.room hr⟩, fun hc => ⟨k.keeps.cells hc, length_cellOwn_le (k.keeps.cells hc)⟩⟩

end
end

section
/-! The state after power-up reset (R23, R49, R74, R143, R185): the values it holds, and every invariant it meets. -/

namespace Sys2Proof.Machine

namespace State

@[simp] theorem reset_station (st : StationId) : reset.station st = .reset := by simp [reset, station]

@[simp] theorem reset_gun (g : SlotId) : reset.gun g = .reset := by simp [reset, gun]

@[simp] theorem reset_tagState (g : SlotId) : reset.tagState g = .reset := by simp [reset, tagState]

end State

/-- The modes that a station powers up with (R123). -/
theorem State.mode_reset (st : StationId) (k : FaultKind) : State.reset.mode st k =
    if k = .shortCycle ∨ k = .spotShortfall ∨ k = .qualityReject then .pass else .hold := by
  unfold State.mode
  rw [State.reset_station]
  cases k <;> rfl

end Sys2Proof.Machine

section

open Sys2Proof Sys2Proof.Machine

/-- Settles O4, block by block: every block of the reset state is written out in its definition. -/
theorem resetHoldsThePowerUpValues : Obligations.ResetHoldsThePowerUpValues := by
  have stations : ∀ st, State.reset.station st = .reset := State.reset_station
  refine ⟨rfl, State.cleared_reset.recordsInUse, rfl, rfl, fun st => ?_, fun g => ?_, rfl, rfl, rfl, rfl, rfl, fun i => ?_, rfl, rfl,
    rfl, rfl, rfl, rfl, rfl, rfl, fun g => ?_, rfl, rfl, rfl, rfl, rfl, rfl, rfl, rfl, rfl, fun c => ?_, rfl⟩
  · rw [stations]
    exact ⟨rfl, rfl, rfl, rfl, rfl, by simp [State.reset], fun k _ => State.mode_reset st k⟩
  · rw [State.reset_gun, State.reset_tagState]
    exact ⟨rfl, rfl⟩
  · simp [State.tagCount, State.cleared_reset.recordsInUse]
  · simp [State.reset]
  · simp [State.reset, Channel.reset]

/-- Settles O5: the reset state is cleared of bodies, its banks are empty, and its settings are the power-up values. -/
theorem resetIsSound : Obligations.ResetIsSound := by
  have empty : State.reset.cleared := State.cleared_reset
  refine ⟨⟨Tables.wf_empty, Tables.wf_empty⟩, ⟨Tables.inRange_empty, Tables.inRange_empty⟩, State.settingsInRange_reset,
    empty.stationsSound, empty.uplinkBounded, empty.roomKept, fun g => ?_, rfl, empty.cellKept, empty.bankTagsKept,
    empty.reworkFirst, empty.queuedFresh⟩
  have next : (State.reset.tagState g).next ≠ 0 := by
    rw [State.reset_tagState]
    decide
  exact next

end
end

section
/-! Announcements: where a record joins its queue (R7), what is refused (R5, R8), and what an accepted one does (R6). -/

namespace Sys2Proof.Machine

/-- Behind a NORMAL record that is QUEUED stand NORMAL records only, so behind where a REWORK record joins (R7). -/
theorem origin_of_reworkFirst_append {ahead behind : List BodyRecord} (h : reworkFirst (ahead ++ behind))
    (hb : ∀ x, behind.head? = some x → x.origin = .normal ∧ x.state = .queued) : ∀ x ∈ behind, x.origin = .normal := by
  cases behind with
  | nil => exact fun x hx => nomatch hx
  | cons first rest =>
    obtain ⟨hn, hq⟩ := hb first rfl
    obtain ⟨-, hrest, -⟩ := List.pairwise_append.1 h
    intro x hx
    rcases List.mem_cons.1 hx with rfl | hx
    · exact hn
    · exact (List.pairwise_cons.1 hrest).1 x hx hn hq

/-! ## An ANNOUNCE taken (R5, R148) -/

theorem exec_announce_eq (s : State) {source : Node} (bodyId : BodyId) (station origin : Octet) (style options : BitVec 16)
    (variant : Octet) (hup : s.ports.uplinkUp = true) (h0 : source ≠ 0) (h1 : source ≠ 65535)
    (hown : source ≠ s.filter.ownNode) :
    exec (.announce source bodyId station origin style options variant) s =
      .next (settleNotice s (s.takeAnnounce source bodyId station origin style options variant)) := by
  have hsrc : s.badSource source = false := by
    simpa [State.badSource, validNode] using ⟨⟨h0, h1⟩, hown⟩
  rw [exec_eq]
  simp [effect, State.fromSource, State.linkUp, hup, hsrc, State.accepts]

/-- A malformed ANNOUNCE is a frame error, whoever sends it. -/
theorem exec_announce_malformed (s : State) (source : Node) {bodyId : BodyId} (station : Octet) {origin : Octet}
    {style : BitVec 16} (options : BitVec 16) (variant : Octet) (hup : s.ports.uplinkUp = true)
    (h : bodyId = 0 ∨ style = 0 ∨ style = 65535 ∨ 1 < origin.toNat) :
    exec (.announce source bodyId station origin style options variant) s = .next (settleNotice s s.frameError) := by
  have ht : s.takeAnnounce source bodyId station origin style options variant = s.frameError := if_pos h
  rw [exec_eq]
  simp [effect, State.fromSource, State.linkUp, hup, ht]

/-! ## Refusals (R5, R8, R162) -/

theorem State.settleNotice_refuse (s : State) (bodyId : BodyId) (station : Octet) (reason : RefusalReason) :
    settleNotice s (s.refuse bodyId station reason) = s.announcementRefused bodyId station reason := by
  unfold State.refuse State.announcementRefused
  simp only [List.length_append, List.length_cons, List.length_nil]
  rfl

/-- A well-formed ANNOUNCE that a condition of R5 refuses is logged with its reason. -/
theorem exec_announce_refused (s : State) {source : Node} {bodyId : BodyId} (station : Octet) {origin : Octet}
    {style : BitVec 16} (options : BitVec 16) (variant : Octet) {reason : RefusalReason}
    (h : s.hearsAnnounce source bodyId origin style) (hr : announceRefusal s source bodyId station = some reason) :
    exec (.announce source bodyId station origin style options variant) s =
      .next (s.announcementRefused bodyId station reason) := by
  obtain ⟨hup, h0, h1, hown, hb, hs0, hs1, ho⟩ := h
  have ht : s.takeAnnounce source bodyId station origin style options variant = s.refuse bodyId station reason := by
    unfold State.takeAnnounce
    rw [if_neg (by simp only [hb, hs0, hs1, false_or]; omega), hr]
  rw [exec_announce_eq s bodyId station origin style options variant hup h0 h1 hown, ht, State.settleNotice_refuse]

theorem announceRefusal_unknownSource {s : State} {source : Node} (h : ¬s.knowsSource source) (bodyId : BodyId) (station : Octet)
    (hc : s.tracker.stationCount ≠ 0 ∨ Config.noStationFirst = false) :
    announceRefusal s source bodyId station = some .source := by
  unfold announceRefusal
  rw [if_neg (by rintro ⟨h1, h2⟩; simp [h1, h2] at hc), if_pos (not_or.1 h)]

/-- At station count 0 a known source is refused with No Such Station, by either rule (log entry 35). -/
theorem announceRefusal_noStation {s : State} {source : Node} (h : s.knowsSource source ∨ Config.noStationFirst = true)
    (bodyId : BodyId) (station : Octet) (hc : s.tracker.stationCount = 0) :
    announceRefusal s source bodyId station = some .noSuchStation := by
  unfold announceRefusal
  split
  · rfl
  · next hn =>
    have hk : s.knowsSource source := h.resolve_right fun hf => hn ⟨hc, hf⟩
    have hst : s.configuredStation? station = none := State.configuredStation?_eq_none.2 (by omega)
    rw [if_neg fun ⟨h1, h2⟩ => hk.elim h1 h2, hst]

/-- Where a configuration is applied, the conditions of R5 in their order. -/
theorem announceRefusal_configured {s : State} {source : Node} (h : s.knowsSource source) (bodyId : BodyId) {station : Octet}
    {st : StationId} (hst : s.configuredStation? station = some st) :
    announceRefusal s source bodyId station =
      if (s.station st).state = .offline then some .stationOffline
      else if s.banks.validated = false then some .noTables
      else if ∃ r ∈ (s.station st).queue, r.bodyId = bodyId then some .duplicate
      else if 4 ≤ (s.station st).queue.length ∨ 16 ≤ s.recordsInUse.length then some .queueFull
      else none := by
  have hc := (State.configuredStation?_eq_some.1 hst).2
  unfold announceRefusal
  rw [if_neg (by omega), if_neg fun ⟨h1, h2⟩ => h.elim h1 h2, hst]
  simp only [List.any_eq_true, beq_iff_eq]

end Sys2Proof.Machine

section

open Sys2Proof Sys2Proof.Machine

/-- Settles O21: the place is the split of the queue at its first NORMAL record that is QUEUED. -/
theorem reworkRecordJoinsAheadOfNormalOnes : Obligations.ReworkRecordJoinsAheadOfNormalOnes := by
  intro queue r
  refine ⟨fun h => joinQueue_normal h queue, fun h => ?_, fun h => Keeps.reworkFirst_joinQueue h r⟩
  obtain ⟨ahead, behind, rfl, hj, ha, hb⟩ := joinQueue_rework h queue
  exact ⟨ahead, behind, rfl, hj, ha, hb, fun h => origin_of_reworkFirst_append h hb⟩

/-- Settles O19: the conditions of R5 in their order give the reason; which rule holds at station count 0 is the value of the
free constant `Config.noStationFirst`. -/
theorem refusedAnnouncementIsLogged : Obligations.RefusedAnnouncementIsLogged := by
  refine ⟨fun s source bodyId station origin style options variant hup h =>
    exec_announce_malformed s source station options variant hup h, ?_, ?_, ?_⟩
  · intro s source bodyId station origin style options variant reason h hc hreason hfull
    refine exec_announce_refused s station options variant h ?_
    by_cases hk : s.knowsSource source
    · rw [if_neg (not_not.2 hk)] at hreason
      cases hst : s.configuredStation? station with
      | none =>
        rw [if_pos (State.configuredStation?_eq_none.1 hst)] at hreason
        unfold announceRefusal
        rw [if_neg (by omega), if_neg fun ⟨h1, h2⟩ => hk.elim h1 h2, hst, hreason]
      | some st =>
        obtain ⟨hn, hlt⟩ := State.configuredStation?_eq_some.1 hst
        have hst' : (Fin.ofNat 4 station.toNat : StationId) = st := by
          rw [hn]
          exact Fin.ofNat_eq_cast .. |>.trans (Fin.cast_val_eq_self st)
        rw [if_neg (by omega), hst'] at hreason
        rw [hst'] at hfull
        rw [announceRefusal_configured hk bodyId hst]
        simp only at hreason
        split_ifs at hreason ⊢ <;> grind
    · rw [if_pos hk] at hreason
      rw [hreason]
      exact announceRefusal_unknownSource hk bodyId station (.inl hc)
  · exact fun s source bodyId station origin style options variant h hc hk =>
      exec_announce_refused s station options variant h (announceRefusal_noStation (.inl hk) bodyId station hc)
  · cases hf : Config.noStationFirst with
    | true => exact .inl fun s source bodyId station origin style options variant h hc =>
        exec_announce_refused s station options variant h (announceRefusal_noStation (.inr hf) bodyId station hc)
    | false => exact .inr fun s source bodyId station origin style options variant h hc hk =>
        exec_announce_refused s station options variant h (announceRefusal_unknownSource hk bodyId station (.inr hf))

end
end

section
/-! Head starts (R12 to R15): when a station's test starts its front record, and what a head of an unknown and of a known style
is left as. -/

namespace Sys2Proof.Machine

variable {s : State} {st : StationId} {r : BodyRecord} {rest : List BodyRecord}

namespace State

/-! ## The head start condition (R12) -/

theorem canStart_of_queued (hi : (s.station st).state = .idle) (hq : (s.station st).queue = r :: rest) (hr : r.state = .queued)
    (hv : s.banks.validated = true) (hh : s.sectionHold = false) : s.canStart st = true := by
  simp [canStart, Station.frontQueued, hi, hq, hr, hv, hh]

/-- One condition that fails is enough. -/
theorem canStart_eq_false (h : (s.station st).state ≠ .idle ∨ (∀ r, (s.station st).queue.head? = some r → r.state ≠ .queued) ∨
    s.banks.validated = false ∨ s.sectionHold = true) : s.canStart st = false := by
  rcases h with hi | hq | hv | hh
  · exact canStart_of_not_idle hi
  · have hf : (s.station st).frontQueued = false := by
      unfold Station.frontQueued
      cases h : (s.station st).queue with
      | nil => rfl
      | cons r rest => simpa using hq r (by rw [h]; rfl)
    simp [canStart, hf]
  · simp [canStart, hv]
  · simp [canStart, hh]

/-! ## A head of unknown style (R14, R129) -/

theorem runHead_unknown_hold (hq : (s.station st).queue = r :: rest) (ha : r.state = .active) (hrow : r.row = none)
    (hm : s.mode st .unknownStyle = .hold) : s.runHead st =
      { s with
        tracker := { s.tracker with stations := s.tracker.stations.set st { s.station st with
          state := .held, queue := { r with bodyHeld := true } :: rest } }
        events := { s.events with flags := s.events.flags ||| (1#29 <<< st.val) } } := by
  have hh : s.head? st = some r := Station.head?_eq_some.2 ⟨ha, rest, hq⟩
  rw [← holdBody_eq hq ha]
  simp [runHead, hh, hrow, hm]

theorem runHead_unknown_pass (hq : (s.station st).queue = r :: rest) (ha : r.state = .active) (hrow : r.row = none)
    (hm : s.mode st .unknownStyle = .pass) : s.runHead st = s.released st r rest .faulted := by
  have hh : s.head? st = some r := Station.head?_eq_some.2 ⟨ha, rest, hq⟩
  rw [← releaseHead_eq (cause := .unknownStyle) (outcome := .faulted) hq ha rfl]
  simp [runHead, hh, hrow, hm]

/-! ## A station's test, where the condition holds (R12 to R15) -/

theorem testStation_unknown_hold (hc : s.canStart st = true) (hq : (s.station st).queue = r :: rest) (hrow : r.row = none)
    (hm : s.mode st .unknownStyle = .hold) : s.testStation st =
      { s with
        tracker := { s.tracker with stations := s.tracker.stations.set st { s.station st with
          state := .held
          queue := { r with state := .active, startedAt := some s.lineTime, bodyHeld := true } :: rest } }
        events := { s.events with flags := s.events.flags ||| (1#29 <<< st.val) } } := by
  rw [testStation_of_canStart hc hq]
  generalize hb : ({ r with state := .active, startedAt := some s.lineTime } : BodyRecord) = begun
  have ha : begun.state = .active := by rw [← hb]
  have hrow' : begun.row = none := by rw [← hb, hrow]
  rw [runHead_unknown_hold (r := begun) (rest := rest) (by simp) ha hrow' (by rw [mode_congr (s := s) (by simp), hm]),
    startHeads_of_not_canStart (canStart_of_not_idle (by simp [State.station]))]
  subst hb
  refine ext_fields rfl rfl rfl rfl rfl ?_ rfl rfl rfl rfl rfl rfl rfl rfl rfl rfl
  simp [setStation, setTracker, State.station]

theorem testStation_unknown_pass (hc : s.canStart st = true) (hq : (s.station st).queue = r :: rest) (hrow : r.row = none)
    (hm : s.mode st .unknownStyle = .pass) : s.testStation st =
      (s.released st { r with state := .active, startedAt := some s.lineTime } rest .faulted).testStation st := by
  rw [testStation_of_canStart hc hq]
  rw [runHead_unknown_pass (r := { r with state := .active, startedAt := some s.lineTime }) (rest := rest) (by simp) rfl hrow
    (by rw [mode_congr (s := s) (by simp), hm]), startHeads_released, released_setStation]

/-- Resolutions and what they leave of an entry do not read the queues. -/
theorem resolutions_setQueue (s : State) (st : StationId) (q : List BodyRecord) (bank : BankId) (row variant : Nat)
    (options : BitVec 16) :
    (s.setStation st { s.station st with queue := q }).resolutions st bank row variant options =
      s.resolutions st bank row variant options :=
  resolutions_congr (s := s) (t := s.setStation st { s.station st with queue := q }) rfl rfl rfl rfl (by simp) ..

theorem startedEntry_setQueue (s : State) (st : StationId) (q : List BodyRecord) (g : SlotId) (x : Resolution) :
    (s.setStation st { s.station st with queue := q }).startedEntry g x = s.startedEntry g x := by
  refine startedEntry_congr (s := s) (v := s.setStation st { s.station st with queue := q }) rfl ?_ x
  by_cases h : stationOf g = st
  · rw [h, station_setStation_self]
  · rw [station_setStation_ne _ _ h]

/-- A head put under way: its slots resolved, and settled; and its station before it is settled. -/
theorem runHead_setQueue {row : Nat} (he : r.entries = []) (ha : r.state = .active) (hrow : r.row = some row) :
    let found := s.resolutions st r.bankTag row r.variant r.options
    (s.setStation st { s.station st with queue := r :: rest }).runHead st = (s.startedHead st r rest found).settleHead st ∧
      (s.startedHead st r rest found).station st = { s.station st with
        headLimit := (s.station st).readyLimit
        queue := { r with entries := found.map fun y => s.startedEntry y.1 y.2 } :: rest } := by
  have k := runHead_eq (s := s.setStation st { s.station st with queue := r :: rest }) (st := st) (rest := rest) (by simp) ha
    he hrow (resolutions_setQueue ..)
  simpa only [startedHead_setStation, startedEntry_setQueue, station_setStation_self] using k

/-- A head put under way whose slots resolve without a fault. -/
theorem runHead_setQueue_selecting {row : Nat} (he : r.entries = []) (hb : r.bodyHeld = false) (ha : r.state = .active)
    (hrow : r.row = some row) (hn : s.resolutions st r.bankTag row r.variant r.options ≠ [])
    (hf : ∀ y ∈ s.resolutions st r.bankTag row r.variant r.options, y.2.fault = none) :
    (s.setStation st { s.station st with queue := r :: rest }).runHead st =
      s.selecting st r rest (s.resolutions st r.bankTag row r.variant r.options) := by
  have k := runHead_of_no_fault (s := s.setStation st { s.station st with queue := r :: rest }) (st := st) (r := r)
    (rest := rest) (by simp) ha he hrow hb (by rw [resolutions_setQueue]; exact hf) (by rw [resolutions_setQueue]; exact hn)
  rw [resolutions_setQueue] at k
  exact k.trans (selecting_setStation ..)

/-- A head that starts, its slots resolved and the station settled. -/
theorem testStation_known {row : Nat} (hc : s.canStart st = true) (hq : (s.station st).queue = r :: rest) (he : r.entries = [])
    (hb : r.bodyHeld = false) (hrow : r.row = some row) :
    let begun : BodyRecord := { r with state := .active, startedAt := some s.lineTime }
    let found := s.resolutions st r.bankTag row r.variant r.options
    let head : BodyRecord := { begun with entries := found.map fun x => s.startedEntry x.1 x.2 }
    let u := s.startedHead st begun rest found
    s.testStation st =
      if ∀ e ∈ head.entries, e.ended = true ∧ e.held = false then
        (u.released st head rest (if ∃ e ∈ head.entries, e.state = .faulted then .faulted else .clean)).testStation st
      else { u with tracker := { u.tracker with stations := u.tracker.stations.set st { u.station st with
        state := if ∃ e ∈ head.entries, e.held = true then StationState.held else .dispatching } } } := by
  intro begun found head u
  obtain ⟨hrun, hu⟩ := runHead_setQueue (s := s) (st := st) (r := begun) (rest := rest) he rfl hrow
  rw [testStation_of_canStart hc hq, hrun, settleHead_eq (r := head) (rest := rest) (by rw [hu]) rfl hb]
  split
  · exact startHeads_released ..
  · refine startHeads_of_not_canStart (canStart_of_not_idle ?_) _
    simp only [State.station, Fin.getElem_fin, Vector.getElem_set_self]
    split <;> decide

end State

end Sys2Proof.Machine
end

section
/-! SET STATION (R10, R11), and the head starts of announcements (R6, R13, R14). -/

namespace Sys2Proof.Machine

/-! ## Operands (R192) -/

theorem stationModeOf?_eq_none {o : Octet} : stationModeOf? o = none ↔ 2 < o.toNat := by
  unfold stationModeOf?
  match o.toNat with
  | 0 | 1 | 2 => simp
  | n + 3 => simp

theorem stationModeOf?_eq {o : Octet} (h : o.toNat ≤ 2) :
    stationModeOf? o = some (if o = 0 then .offline else if o = 1 then .idle else .manual) := by
  have hcases : o = 0 ∨ o = 1 ∨ o = 2 := by bv_omega
  rcases hcases with rfl | rfl | rfl <;> rfl

theorem flagOf?_eq_none {o : Octet} : flagOf? o = none ↔ 1 < o.toNat := by
  unfold flagOf?
  match o.toNat with
  | 0 | 1 => simp
  | n + 2 => simp

theorem clampReady_eq (n : Nat) : clampReady n = if n < 100 then 100 else if 30000 < n then 30000 else n := rfl

theorem flagOf?_eq {o : Octet} (h : o.toNat ≤ 1) : flagOf? o = some (decide (o = 1)) := by
  have hcases : o = 0 ∨ o = 1 := by bv_omega
  rcases hcases with rfl | rfl <;> rfl

namespace State

variable {s : State} {e : RequestEntry} {st : StationId}

/-! ## SET STATION (R10, R11) -/

theorem answerSetStation_badParameter {station mode dry : Octet} (limit : BitVec 16)
    (h : 3 < station.toNat ∨ s.tracker.stationCount ≤ station.toNat ∨ 2 < mode.toNat ∨ 1 < dry.toNat) :
    s.answerSetStation station mode dry limit = s.result .badParameter := by
  unfold answerSetStation
  split
  · next st m d hst hm hd =>
    obtain ⟨hn, hlt⟩ := configuredStation?_eq_some.1 hst
    have hm' : ¬2 < mode.toNat := fun k => by rw [stationModeOf?_eq_none.2 k] at hm; cases hm
    have hd' : ¬1 < dry.toNat := fun k => by rw [flagOf?_eq_none.2 k] at hd; cases hd
    omega
  · rfl

theorem stationRefusal_eq (s : State) (st : StationId) {mode dry : Octet} (hd : dry.toNat ≤ 1) :
    s.stationRefusal st (if mode = 0 then .offline else if mode = 1 then .idle else .manual) (decide (dry = 1)) =
      if (s.station st).state = .dispatching ∨ (s.station st).state = .held then some .wrongState
      else if s.agent.partState = .commissioning ∧ mode ≠ 0 ∧ dry = 0 then some .notPermitted
      else none := by
  have hoff : (if mode = 0 then StationState.offline else if mode = 1 then .idle else .manual) ≠ .offline ↔ mode ≠ 0 := by
    split
    · next h => simp [h]
    · next h => split <;> exact iff_of_true (by decide) h
  have hdry : decide (dry = 1) = false ↔ dry = 0 := by
    rw [decide_eq_false_iff_not]
    bv_omega
  unfold stationRefusal
  simp only [hoff, hdry]

theorem setStationMode_eq (s : State) (st : StationId) (mode : Octet) (dry : Bool) (limit : Nat) :
    let moved := s.setStation st { s.station st with
      state := if mode = 0 then .offline else if mode = 1 then .idle else .manual, dry := dry, readyLimit := clampReady limit }
    s.setStationMode st (if mode = 0 then .offline else if mode = 1 then .idle else .manual) dry limit =
      if mode = 1 ∧ (s.station st).state ≠ .idle then moved.testStation st else moved := by
  have hidle : (if mode = 0 then StationState.offline else if mode = 1 then .idle else .manual) = .idle ↔ mode = 1 := by
    split
    · next h => simp [h]
    · split <;> simp_all
  simp only [setStationMode, testIfIdled, station_setStation_self, hidle]

/-- SET STATION with its operands read: refused. -/
theorem answerSetStation_refused {station mode dry : Octet} (limit : BitVec 16) {r : ResultCode} (hn : station.toNat = st.val)
    (hc : st.val < s.tracker.stationCount) (hm : mode.toNat ≤ 2) (hd : dry.toNat ≤ 1)
    (hr : (if (s.station st).state = .dispatching ∨ (s.station st).state = .held then some .wrongState
      else if s.agent.partState = .commissioning ∧ mode ≠ 0 ∧ dry = 0 then some .notPermitted
      else none) = some r) :
    s.answerSetStation station mode dry limit = s.result r := by
  rw [← stationRefusal_eq s st hd] at hr
  unfold answerSetStation
  rw [configuredStation?_eq_some.2 ⟨hn, hc⟩, stationModeOf?_eq hm, flagOf?_eq hd]
  simp only [hr]

/-- SET STATION with its operands read: moved, and its ready limit reported where it was out of range. -/
theorem answerSetStation_moved {station mode dry : Octet} (limit : BitVec 16) (hn : station.toNat = st.val)
    (hc : st.val < s.tracker.stationCount) (hm : mode.toNat ≤ 2) (hd : dry.toNat ≤ 1)
    (hr : (if (s.station st).state = .dispatching ∨ (s.station st).state = .held then some ResultCode.wrongState
      else if s.agent.partState = .commissioning ∧ mode ≠ 0 ∧ dry = 0 then some .notPermitted
      else none) = none) :
    let stored := clampReady limit.toNat
    let moved := s.setStation st { s.station st with
      state := if mode = 0 then .offline else if mode = 1 then .idle else .manual
      dry := decide (dry = 1)
      readyLimit := stored }
    let tested := if mode = 1 ∧ (s.station st).state ≠ .idle then moved.testStation st else moved
    s.answerSetStation station mode dry limit =
      if stored = limit.toNat then ⟨tested, .done, []⟩ else ⟨tested, .doneClamped, [mode, dry] ++ Octets.nat2 stored⟩ := by
  rw [← stationRefusal_eq s st hd] at hr
  unfold answerSetStation
  rw [configuredStation?_eq_some.2 ⟨hn, hc⟩, stationModeOf?_eq hm, flagOf?_eq hd]
  simp only [hr, setStationMode_eq]
  rfl

end State

end Sys2Proof.Machine

section

open Sys2Proof Sys2Proof.Machine

/-- Settles O48: the test of a head start (`State.testStation_known` and its like), and SET STATION by its operands. -/
theorem setStationMovesTheStation : Obligations.SetStationMovesTheStation := by
  refine ⟨fun s st h => State.testStation_of_not_canStart (State.canStart_eq_false h), ?_, ?_⟩
  · intro s st r rest fresh hi hq hr hv hh begun
    have hc := State.canStart_of_queued hi hq hr hv hh
    obtain ⟨he, hb, -⟩ := fresh st r (by rw [hq]; exact .head _) hr
    refine ⟨fun hrow hm => State.testStation_unknown_hold (r := r) hc hq hrow hm,
      fun hrow hm => State.testStation_unknown_pass (r := r) hc hq hrow hm, fun row hrow => ⟨?_, ?_⟩⟩
    · exact (State.runHead_setQueue (r := begun) he rfl hrow).2
    · exact State.testStation_known (r := r) hc hq he hb hrow
  · intro s e station mode dry limit h
    refine ⟨fun hbad => event_of_executes_refused h (State.answerSetStation_badParameter limit hbad), ?_⟩
    intro st hn hc hm hd refusal stored moved answered
    refine ⟨fun r hr => event_of_executes_refused h (State.answerSetStation_refused limit hn hc hm hd hr), fun hr => ?_⟩
    have ha := State.answerSetStation_moved limit hn hc hm hd hr
    have noticed : exec (.setStation station mode dry limit) s = .next (settleNotice s (answered (
        if mode = 1 ∧ (s.station st).state ≠ .idle then moved.testStation st else moved))) := by
      by_cases hl : stored = limit.toNat
      · rw [show answered = fun u => u.replied e .done [] from funext fun u => if_pos hl]
        exact event_answer_noticed h (ha.trans (if_pos hl))
      · rw [show answered = fun u => u.replied e .doneClamped ([mode, dry] ++ Octets.nat2 stored) from
          funext fun u => if_neg hl]
        exact event_answer_noticed h (ha.trans (if_neg hl))
    refine ⟨fun hq => ?_, noticed⟩
    have hm : (if mode = 1 ∧ (s.station st).state ≠ .idle then moved.testStation st else moved) = moved := by
      split
      · next hi =>
        exact State.testStation_of_not_canStart
          (State.canStart_of_empty (by simpa [moved, State.station] using hq.resolve_left (not_not.2 hi.1)))
      · rfl
    rw [noticed, hm, settleNotice_quiet]
    · simp only [answered]
      split <;> rfl
    · simp only [answered]
      split <;> rfl

end
end

section
/-! Accepted announcements (R6, R7): the record made, and what its station does with it. -/

namespace Sys2Proof.Machine

variable {s : State} {st : StationId}

/-! ## The record and its queue (R2, R6) -/

/-- A flag set on a condition is one mask or none. -/
theorem State.flagged_ite (s : State) (c : Prop) [Decidable c] (m : BitVec 29) :
    (if c then s.flagged m else s) = s.flagged (if c then m else 0) := by
  split
  · rfl
  · exact State.ext_fields rfl rfl rfl rfl rfl rfl rfl rfl rfl rfl rfl rfl (by simp [State.flagged]) rfl rfl rfl

theorem newRecord_variant (s : State) (bodyId : BodyId) (st : StationId) (style options : BitVec 16) (variant : Octet)
    (origin : Origin) : newRecord s bodyId st style options variant origin =
      { newRecord s bodyId st style options variant origin with variant := if 3 < variant.toNat then 3 else variant.toNat } := by
  have hmin : min variant.toNat 3 = if 3 < variant.toNat then 3 else variant.toNat := by
    split <;> omega
  rw [← hmin]
  rfl

theorem State.accept_eq (s : State) (st : StationId) (r : BodyRecord) (c : Prop) [Decidable c] :
    let joined := s.setStation st { s.station st with queue := joinQueue (s.station st).queue r }
    let warned := if c then joined.flagged (1#29 <<< (4 + st.val)) else joined
    s.accept st r (decide c) =
      if (s.station st).state = .idle ∧ (joinQueue (s.station st).queue r).head? = some r then warned.testStation st
      else warned := by
  simp only [State.accept, State.setFlagIf, decide_eq_true_eq]
  rfl

/-- What an announcement that no condition of R5 refuses is taken as (R6). -/
theorem exec_announce_accepted {source : Node} {bodyId : BodyId} {origin : Octet} {style : BitVec 16} (options : BitVec 16)
    (variant : Octet) (hup : s.ports.uplinkUp = true) (h0 : source ≠ 0) (h1 : source ≠ 65535)
    (hown : source ≠ s.filter.ownNode) (hb : bodyId ≠ 0) (hs0 : style ≠ 0) (hs1 : style ≠ 65535) (ho : origin.toNat ≤ 1)
    (hk : s.knowsSource source) (hc : st.val < s.tracker.stationCount) (hoff : (s.station st).state ≠ .offline)
    (hv : s.banks.validated = true) (hd : ∀ r ∈ (s.station st).queue, r.bodyId ≠ bodyId)
    (hq : (s.station st).queue.length < 4) (hu : s.recordsInUse.length < 16) :
    exec (.announce source bodyId (BitVec.ofNat 8 st.val) origin style options variant) s = .next (settleNotice s
      (s.accept st (newRecord s bodyId st style options variant (if origin = 0 then .normal else .rework))
        (decide (3 < variant.toNat)))) := by
  have hst : s.configuredStation? (BitVec.ofNat 8 st.val) = some st :=
    State.configuredStation?_eq_some.2 ⟨by simp only [BitVec.toNat_ofNat]; omega, hc⟩
  have hr : announceRefusal s source bodyId (BitVec.ofNat 8 st.val) = none := by
    rw [announceRefusal_configured hk bodyId hst, if_neg hoff, if_neg (by simp [hv]), if_neg (by simpa using hd),
      if_neg (by omega)]
  rw [exec_announce_eq s bodyId _ origin style options variant hup h0 h1 hown]
  unfold State.takeAnnounce
  rw [if_neg (by simp only [hb, hs0, hs1, false_or]; omega), hr, hst]

/-! ## A record that joins an IDLE station with an empty queue (R6, R12) -/

/-- There the record is the whole queue, and the station tests its head start condition. -/
theorem State.accept_idle_empty (hi : (s.station st).state = .idle) (hq : (s.station st).queue = []) (r : BodyRecord) (c : Prop)
    [Decidable c] :
    s.accept st r (decide c) = (State.setStation (s.flagged (if c then 1#29 <<< (4 + st.val) else 0)) st
      { s.station st with queue := [r] }).testStation st := by
  have hj : joinQueue [] r = [r] := by
    unfold joinQueue
    cases r.origin <;> rfl
  rw [State.accept_eq, hq, hj, if_pos (by exact ⟨hi, rfl⟩)]
  simp only [State.flagged_ite]
  rfl

/-- A queue changed leaves Section Holds as they were. -/
theorem State.sectionHold_setQueue (s : State) (st : StationId) (q : List BodyRecord) :
    (s.setStation st { s.station st with queue := q }).sectionHold = s.sectionHold := by
  refine State.sectionHold_congr rfl fun st' => ?_
  by_cases h : st' = st
  · rw [h, State.station_setStation_self]
  · rw [State.station_setStation_ne _ _ h]

section Alone

variable {r : BodyRecord} (hi : (s.station st).state = .idle) (hr : r.state = .queued) (hv : s.banks.validated = true)
  (hh : s.sectionHold = false)

include hi hr hv hh

theorem State.canStart_alone : (s.setStation st { s.station st with queue := [r] }).canStart st = true := by
  exact State.canStart_of_queued (r := r) (rest := []) (by simpa using hi) (by simp) hr hv
    ((State.sectionHold_setQueue ..).trans hh)

theorem State.testStation_alone_unknown_hold (hrow : r.row = none) (hm : s.mode st .unknownStyle = .hold) :
    (s.setStation st { s.station st with queue := [r] }).testStation st =
      { s with
        tracker := { s.tracker with stations := s.tracker.stations.set st { s.station st with
          state := .held, queue := [{ r with state := .active, startedAt := some s.lineTime, bodyHeld := true }] } }
        events := { s.events with flags := s.events.flags ||| (1#29 <<< st.val) } } := by
  rw [State.testStation_unknown_hold (r := r) (rest := []) (State.canStart_alone hi hr hv hh) (by simp) hrow
    (by rw [State.mode_congr (s := s) (by simp), hm])]
  refine State.ext_fields rfl rfl rfl rfl rfl ?_ rfl rfl rfl rfl rfl rfl rfl rfl rfl rfl
  simp [State.setStation, State.setTracker, State.station]

theorem State.testStation_alone_unknown_pass (hrow : r.row = none) (hm : s.mode st .unknownStyle = .pass) :
    (s.setStation st { s.station st with queue := [r] }).testStation st =
      s.released st { r with state := .active, startedAt := some s.lineTime } [] .faulted := by
  rw [State.testStation_unknown_pass (r := r) (rest := []) (State.canStart_alone hi hr hv hh) (by simp) hrow
    (by rw [State.mode_congr (s := s) (by simp), hm]), State.testStation_released_nil, State.released_setStation]
  rfl

theorem State.testStation_alone_known {row : Nat} (he : r.entries = []) (hb : r.bodyHeld = false) (hrow : r.row = some row) :
    let begun : BodyRecord := { r with state := .active, startedAt := some s.lineTime }
    let found := s.resolutions st r.bankTag row r.variant r.options
    let head : BodyRecord := { begun with entries := found.map fun x => s.startedEntry x.1 x.2 }
    let u := s.startedHead st begun [] found
    (s.setStation st { s.station st with queue := [r] }).testStation st =
      if ∀ e ∈ head.entries, e.ended = true ∧ e.held = false then
        u.released st head [] (if ∃ e ∈ head.entries, e.state = .faulted then .faulted else .clean)
      else { u with tracker := { u.tracker with stations := u.tracker.stations.set st { u.station st with
        state := if ∃ e ∈ head.entries, e.held = true then StationState.held else .dispatching } } } := by
  have k := State.testStation_known (r := r) (rest := []) (State.canStart_alone hi hr hv hh) (by simp) he hb hrow
  simpa only [State.resolutions_setQueue, State.startedEntry_setQueue, State.startedHead_setStation,
    State.testStation_released_nil, State.setStation_lineTime] using k

theorem State.testStation_alone_selecting {row : Nat} (he : r.entries = []) (hb : r.bodyHeld = false) (hrow : r.row = some row)
    (hn : s.resolutions st r.bankTag row r.variant r.options ≠ [])
    (hf : ∀ y ∈ s.resolutions st r.bankTag row r.variant r.options, y.2.fault = none) :
    (s.setStation st { s.station st with queue := [r] }).testStation st =
      s.selecting st { r with state := .active, startedAt := some s.lineTime } []
        (s.resolutions st r.bankTag row r.variant r.options) := by
  rw [State.testStation_of_canStart (r := r) (rest := []) (State.canStart_alone hi hr hv hh) (by simp), State.station_setStation_self,
    State.setStation_setStation]
  exact State.runHead_setQueue_selecting he hb rfl hrow hn hf

end Alone

end Sys2Proof.Machine

section

open Sys2Proof Sys2Proof.Machine

/-- Settles O22: the record is the head at once, and its test ends as that of any head of unknown style. -/
theorem unknownStyleHeadIsHeld : Obligations.UnknownStyleHeadIsHeld := by
  intro s source bodyId st origin style options variant hup h0 h1 hown hb hs0 hs1 ho hk hc hi hq hv hu hh hrow head base
  have hexec := exec_announce_accepted options variant hup h0 h1 hown hb hs0 hs1 ho hk hc (by rw [hi]; decide) hv
    (by simp [hq]) (by simp [hq]) hu
  rw [State.accept_idle_empty hi hq] at hexec
  have hbase : base = s.flagged (if 3 < variant.toNat then 1#29 <<< (4 + st.val) else 0) := State.flagged_ite ..
  rw [hexec, hbase]
  generalize (if 3 < variant.toNat then 1#29 <<< (4 + st.val) else 0) = m
  have hhead : head = { newRecord s bodyId st style options variant (if origin = 0 then .normal else .rework) with
      state := .active, startedAt := some s.lineTime } := by
    rw [newRecord_variant]
    simp only [newRecord, hrow, head]
  have hr : (newRecord s bodyId st style options variant (if origin = 0 then .normal else .rework)).state = .queued := rfl
  have hrow' : (newRecord s bodyId st style options variant (if origin = 0 then .normal else .rework)).row = none := hrow
  generalize newRecord s bodyId st style options variant (if origin = 0 then .normal else .rework) = r at hhead hr hrow' ⊢
  rw [hhead]
  refine ⟨fun hm => ?_, fun hm => ?_⟩
  · exact congrArg (fun t => Host.Outcome.next (settleNotice s t))
      (State.testStation_alone_unknown_hold (s := s.flagged m) hi hr hv hh hrow' hm)
  · exact congrArg (fun t => Host.Outcome.next (settleNotice s t))
      (State.testStation_alone_unknown_pass (s := s.flagged m) hi hr hv hh hrow' hm)

/-- Settles O20: what joins, and, at an IDLE station where the record stands at the front, its head start. -/
theorem acceptedAnnouncementJoinsTheQueue : Obligations.AcceptedAnnouncementJoinsTheQueue := by
  intro s source bodyId st origin style options variant hup h0 h1 hown hb hs0 hs1 ho hk hc hoff hv hd hlen hu r joined warned
    atFront
  have hexec := exec_announce_accepted options variant hup h0 h1 hown hb hs0 hs1 ho hk hc hoff hv hd hlen hu
  have hr0 : newRecord s bodyId st style options variant (if origin = 0 then .normal else .rework) = r := newRecord_variant ..
  have hr : r.state = .queued := rfl
  have hopt : r.options = options := rfl
  have htag : r.bankTag = s.banks.active := rfl
  have he : r.entries = [] := rfl
  have hheld : r.bodyHeld = false := rfl
  rw [hr0] at hexec
  clear_value r
  have haccept : s.accept st r (decide (3 < variant.toNat)) =
      if (s.station st).state = .idle ∧ atFront then warned.testStation st else warned := State.accept_eq ..
  refine ⟨fun h => ?_, fun hi hf => ?_, ?_⟩
  · have hw : s.accept st r (decide (3 < variant.toNat)) = warned := by
      rw [haccept]
      split
      · next hif =>
        obtain ⟨hi, hf⟩ := hif
        have hh : s.sectionHold = true := (h.resolve_left (not_not.2 hi)).resolve_right (not_not.2 hf)
        have hw : warned = joined.flagged (if 3 < variant.toNat then 1#29 <<< (4 + st.val) else 0) := State.flagged_ite ..
        rw [hw]
        refine State.testStation_of_not_canStart (State.canStart_eq_false (.inr (.inr (.inr ?_))))
        exact (State.sectionHold_setQueue s st (joinQueue (s.station st).queue r)).trans hh
      · rfl
    rw [hexec, hw]
    split
    · rfl
    · next hv =>
      rw [show warned = joined from if_neg hv]
      exact congrArg _ (settleNotice_quiet rfl rfl)
  · rw [hexec, haccept, if_pos ⟨hi, hf⟩]
  · intro row hi hq hh hrow found base started head u
    rw [State.accept_idle_empty hi hq] at hexec
    have hbase : base = s.flagged (if 3 < variant.toNat then 1#29 <<< (4 + st.val) else 0) := State.flagged_ite ..
    have hu : u = base.startedHead st started [] found := rfl
    clear_value u
    rw [hexec, hu, hbase]
    generalize (if 3 < variant.toNat then 1#29 <<< (4 + st.val) else 0) = m
    have hfound : found = (s.flagged m).resolutions st r.bankTag row r.variant r.options := by
      rw [htag, hopt]
      rfl
    refine ⟨?_, ?_, fun hn hf => ?_⟩
    · have k := (State.runHead_setQueue (s := s.flagged m) (st := st) (r := started) (rest := []) he rfl hrow).2
      rw [show State.resolutions _ st started.bankTag row started.variant started.options = found from hfound.symm] at k
      exact k
    · have k := State.testStation_alone_known (s := s.flagged m) hi hr hv hh he hheld hrow
      rw [← hfound] at k
      exact congrArg (fun t => Host.Outcome.next (settleNotice s t)) k
    · rw [hfound] at hn hf
      have k := State.testStation_alone_selecting (s := s.flagged m) hi hr hv hh he hheld hrow hn hf
      rw [← hfound] at k
      exact congrArg (fun t => Host.Outcome.next (settleNotice s t)) k

end
end

section
/-! SET HOLD SCOPE (R133, R134), and how COPY BANK and the validation of a SWAP end (R42, R45 to R47). -/

namespace Sys2Proof.Machine

/-! ## Every station's test (R12) -/

theorem State.testEvery_eq (s : State) : ∃ order : List StationId, order.Perm [0, 1, 2, 3] ∧
    s.testEvery = order.foldl State.testStation { s with free := s.free + 1 } :=
  ⟨_, stationOrder_perm _, rfl⟩

/-! ## SET HOLD SCOPE (R133) -/

theorem scopeOf?_eq_none {o : Octet} : scopeOf? o = none ↔ 1 < o.toNat := by
  unfold scopeOf?
  match o.toNat with
  | 0 | 1 => simp
  | n + 2 => simp

theorem State.answerSetHoldScope_of_no_end {s : State} {o : Octet} {h : HoldScope} (ho : scopeOf? o = some h)
    (hh : s.sectionHold = false ∨ (s.setScope h).sectionHold = true) :
    s.answerSetHoldScope o = (s.setScope h).result .done := by
  unfold State.answerSetHoldScope testAfterHold
  rw [ho]
  simp only
  rw [if_neg]
  rcases hh with hh | hh <;> simp [hh]

theorem State.answerSetHoldScope_of_end {s : State} {o : Octet} {h : HoldScope} (ho : scopeOf? o = some h)
    (hb : s.sectionHold = true) (ha : (s.setScope h).sectionHold = false) :
    s.answerSetHoldScope o = (s.setScope h).testEvery.result .done := by
  unfold State.answerSetHoldScope testAfterHold
  rw [ho]
  simp [hb, ha]

/-- A Section Hold stands on while the scope is the whole section. -/
theorem State.sectionHold_setScope_wholeSection {s : State} (h : s.sectionHold = true) :
    (s.setScope .wholeSection).sectionHold = true := by
  unfold State.sectionHold at h ⊢
  exact (Bool.and_eq_true_iff.2 ⟨rfl, (Bool.and_eq_true_iff.1 h).2⟩)

end Sys2Proof.Machine

section

open Sys2Proof Sys2Proof.Machine

/-- Settles O50: a Section Hold can end only where the scope becomes STATION. -/
theorem setHoldScopeWritesTheScope : Obligations.SetHoldScopeWritesTheScope := by
  intro s e scope h
  refine ⟨fun hs => ?_, fun hs hh => ?_, fun hs hh => ?_, fun hs => ?_⟩
  · refine event_of_executes_refused h ?_
    unfold State.answerSetHoldScope
    rw [scopeOf?_eq_none.2 hs]
    rfl
  · exact event_answer h (State.answerSetHoldScope_of_no_end (h := .station) (by rw [hs]; rfl) (.inl hh)) rfl rfl
  · obtain ⟨order, hp, he⟩ := (s.setScope .station).testEvery_eq
    have ha := State.answerSetHoldScope_of_end (h := .station) (o := scope) (by rw [hs]; rfl) hh
      (State.sectionHold_of_station_scope rfl)
    rw [he] at ha
    exact ⟨order, hp, event_answer_noticed h ha⟩
  · refine event_answer h (State.answerSetHoldScope_of_no_end (h := .wholeSection) (by rw [hs]; rfl) ?_) rfl rfl
    cases hh : s.sectionHold with
    | false => exact .inl rfl
    | true => exact .inr (State.sectionHold_setScope_wholeSection hh)

/-- Settles O44: the ends of a copy and of a validation, by the tables validated and the mark of the outgoing bank. -/
theorem bankOperationsComplete : Obligations.BankOperationsComplete := by
  intro s ended switched
  refine ⟨fun h => ?_, fun h => ?_, fun hr hv => ⟨fun f hf => ?_, fun hf => ⟨fun hb => ?_, fun hb => ?_⟩⟩⟩
  · exact event_id (by simp [State.completeCopy, h])
  · exact event_noticed (by simp only [State.completeCopy, h, if_true]; rfl)
  · exact event_noticed (by simp only [State.endValidation, hr, hv, hf]; rfl)
  · exact event_noticed (by simp only [State.endValidation, hr, hv, hf, State.switchBanks, hb]; rfl)
  · obtain ⟨order, hp, he⟩ := switched.testEvery_eq
    refine ⟨order, hp, event_noticed ?_⟩
    rw [← he]
    simp only [State.endValidation, hr, hv, hf, State.switchBanks, hb]
    rfl

end
end

section
/-! Withdrawals (R21, R22): refused, of a QUEUED record, and of a head. -/

namespace Sys2Proof.Machine

variable {s : State} {st : StationId} {bodyId : BodyId} {station : Octet}

theorem exec_withdraw_eq (s : State) {source : Node} (bodyId : BodyId) (station : Octet) (hup : s.ports.uplinkUp = true)
    (h0 : source ≠ 0) (h1 : source ≠ 65535) (hown : source ≠ s.filter.ownNode) :
    exec (.withdraw source bodyId station) s = .next (settleNotice s (s.takeWithdraw source bodyId station)) := by
  have hsrc : s.badSource source = false := by
    simpa [State.badSource, validNode] using ⟨⟨h0, h1⟩, hown⟩
  rw [exec_eq]
  simp [effect, State.fromSource, State.linkUp, hup, hsrc, State.accepts]

/-- A withdrawal refused, as a logged announcement is. -/
theorem State.refuse_eq (s : State) (bodyId : BodyId) (station : Octet) (reason : RefusalReason) :
    s.refuse bodyId station reason =
      { s with
        tracker := { s.tracker with
          refusalLog := (s.tracker.refusalLog ++ [RefusalEntry.mk bodyId station reason s.lineTime]).drop
            (s.tracker.refusalLog.length + 1 - 4) }
        events := { s.events with
          refusals := bump s.events.refusals
          flags := s.events.flags ||| (1#29 <<< 15) } } := by
  unfold State.refuse
  simp only [List.length_append, List.length_cons, List.length_nil]
  rfl

/-! ## What a withdrawal finds (R21) -/

theorem State.withdrawBody_noSuchStation (h : 3 < station.toNat ∨ s.tracker.stationCount ≤ station.toNat) :
    s.withdrawBody bodyId station = (s.refuse bodyId station .noSuchStation, some .noSuchStation) := by
  unfold State.withdrawBody
  rw [State.configuredStation?_eq_none.2 h]

theorem State.withdrawBody_notFound (hn : station.toNat = st.val) (hc : st.val < s.tracker.stationCount)
    (h : ∀ r ∈ (s.station st).queue, r.bodyId ≠ bodyId) :
    s.withdrawBody bodyId station = (s.refuse bodyId station .notFound, some .notFound) := by
  have hf : s.findBody st bodyId = none := List.find?_eq_none.2 fun r hr => by simpa using h r hr
  unfold State.withdrawBody
  rw [State.configuredStation?_eq_some.2 ⟨hn, hc⟩]
  simp only [hf]

theorem State.findBody_of_ahead {ahead behind : List BodyRecord} {r : BodyRecord} (hq : (s.station st).queue = ahead ++ r :: behind)
    (hr : r.bodyId = bodyId) (ho : ∀ y ∈ ahead, y.bodyId ≠ bodyId) : s.findBody st bodyId = some r := by
  unfold State.findBody
  rw [hq, List.find?_append, List.find?_eq_none.2 fun y hy => by simpa using ho y hy]
  simp [hr]

/-! ## A QUEUED record (R21) -/

/-- The other records of a queue in which a Body Id stands once. -/
theorem filter_bodyId_ne {ahead behind : List BodyRecord} {r : BodyRecord} (ho : ∀ y ∈ ahead ++ behind, y.bodyId ≠ r.bodyId) :
    (ahead ++ r :: behind).filter (fun y => y.bodyId != r.bodyId) = ahead ++ behind := by
  have hk : (ahead ++ behind).filter (fun y => y.bodyId != r.bodyId) = ahead ++ behind :=
    List.filter_eq_self.2 fun y hy => by simpa using ho y hy
  rw [List.filter_append] at hk ⊢
  rw [List.filter_cons_of_neg (by simp)]
  exact hk

theorem State.withdrawQueued_eq {ahead behind : List BodyRecord} {r : BodyRecord}
    (hq : (s.station st).queue = ahead ++ r :: behind) (ho : ∀ y ∈ ahead ++ behind, y.bodyId ≠ r.bodyId) :
    s.withdrawQueued st r =
      State.offered
        { s with
          tracker := { s.tracker with stations := s.tracker.stations.set st { s.station st with
            queue := ahead ++ behind
            counters := { (s.station st).counters with aborted := bump (s.station st).counters.aborted } } }
          ports := { s.ports with
            uplinkOwn := s.ports.uplinkOwn ++ [.release (s.envelopeTo s.reportNode)
              { r with
                station := st, entries := [], state := .releasing, releasedAt := some s.lineTime
                outcome := some .aborted }] } }
        st (.release { r with
          station := st, entries := [], state := .releasing, releasedAt := some s.lineTime, outcome := some .aborted }) := by
  unfold State.withdrawQueued State.emitRelease
  simp only [hq, filter_bodyId_ne ho]
  rw [State.mirror_eq]
  refine congrArg (State.offered · st _) ?_
  refine State.ext_fields rfl rfl rfl rfl rfl ?_ rfl rfl rfl rfl rfl rfl rfl rfl rfl rfl
  simp [State.setStation, State.setTracker, State.station, State.pushUplink]
  rfl

theorem State.withdrawBody_queued (hn : station.toNat = st.val) (hc : st.val < s.tracker.stationCount) {r : BodyRecord}
    (hf : s.findBody st bodyId = some r) (hr : r.state ≠ .active) :
    s.withdrawBody bodyId station = (s.withdrawQueued st r, none) := by
  unfold State.withdrawBody
  rw [State.configuredStation?_eq_some.2 ⟨hn, hc⟩]
  simp only [hf, if_neg hr]

/-! ## A head (R22, R134) -/

theorem State.withdrawBody_head (hn : station.toNat = st.val) (hc : st.val < s.tracker.stationCount) {r kept : BodyRecord}
    {rest : List BodyRecord} (hq : (s.station st).queue = r :: rest) (hr : r.bodyId = bodyId) (ha : r.state = .active)
    (hu : (((r.entries.map fun x => slotOf st x.position).foldl State.givenUp s).station st).queue = kept :: rest)
    (hk : kept.state = .active) :
    let settled := ((r.entries.map fun x => slotOf st x.position).foldl State.givenUp s).released st
      { kept with bodyHeld := false } rest .aborted
    s.withdrawBody bodyId station = (testAfterHold s settled (settled.testStation st), none) := by
  have hf : s.findBody st bodyId = some r := State.findBody_of_ahead (ahead := []) hq hr (by simp)
  unfold State.withdrawBody
  rw [State.configuredStation?_eq_some.2 ⟨hn, hc⟩]
  simp only [hf, if_pos ha, State.withdrawHead, State.abortHead_eq hq ha hu hk]

/-! ## The two requests for a withdrawal (R21) -/

theorem exec_withdraw_known {source : Node} (hk : s.knowsSource source) (bodyId : BodyId) (station : Octet)
    (hup : s.ports.uplinkUp = true) (h0 : source ≠ 0) (h1 : source ≠ 65535) (hown : source ≠ s.filter.ownNode) :
    exec (.withdraw source bodyId station) s = .next (settleNotice s (s.withdrawBody bodyId station).1) := by
  rw [exec_withdraw_eq s bodyId station hup h0 h1 hown]
  exact congrArg (fun t => Host.Outcome.next (settleNotice s t)) (if_neg fun ⟨k1, k2⟩ => hk.elim k1 k2)

theorem exec_withdraw_unknown {source : Node} (hk : ¬s.knowsSource source) (bodyId : BodyId) (station : Octet)
    (hup : s.ports.uplinkUp = true) (h0 : source ≠ 0) (h1 : source ≠ 65535) (hown : source ≠ s.filter.ownNode) :
    exec (.withdraw source bodyId station) s = .next (settleNotice s (s.refuse bodyId station .source)) := by
  rw [exec_withdraw_eq s bodyId station hup h0 h1 hown]
  exact congrArg (fun t => Host.Outcome.next (settleNotice s t)) (if_pos (not_or.1 hk))

theorem exec_withdrawBody {e : RequestEntry} (h : s.executes (.withdrawBody bodyId station) e) {t : State}
    {reason : Option RefusalReason} (ht : s.withdrawBody bodyId station = (t, reason)) :
    exec (.withdrawBody bodyId station) s = .next (settleNotice s (t.replied e (withdrawResult reason) [])) := by
  refine event_answer_noticed h ?_
  unfold State.answerWithdrawBody
  rw [ht]
  rfl

end Sys2Proof.Machine

section

open Sys2Proof Sys2Proof.Machine

/-- Settles O52: a WITHDRAW from a known node and a WITHDRAW BODY do one thing, the latter with its REPLY. -/
theorem withdrawalReleasesAQueuedBodyAborted : Obligations.WithdrawalReleasesAQueuedBodyAborted := by
  intro s e source bodyId station logged released headReleased known
  have hlog : ∀ reason, s.refuse bodyId station reason = logged reason := State.refuse_eq s bodyId station
  have hqueued : ∀ (st : StationId) ahead r behind, station.toNat = st.val → st.val < s.tracker.stationCount →
      (s.station st).queue = ahead ++ r :: behind → r.bodyId = bodyId → (∀ y ∈ ahead ++ behind, y.bodyId ≠ bodyId) →
      r.state = .queued → s.withdrawBody bodyId station = (released st (ahead ++ behind) r, none) := by
    intro st ahead r behind hn hc hq hr ho hs
    have hf := State.findBody_of_ahead hq hr fun y hy => ho y (List.mem_append_left _ hy)
    have hw := State.withdrawQueued_eq hq (by rw [hr]; exact ho)
    exact (State.withdrawBody_queued hn hc hf (by rw [hs]; decide)).trans (congrArg (·, none) hw)
  have hhead : ∀ (st : StationId) settled, station.toNat = st.val → st.val < s.tracker.stationCount →
      headReleased st settled →
      s.withdrawBody bodyId station = (testAfterHold s settled (settled.testStation st), none) := by
    rintro st settled hn hc ⟨r, rest, kept, hq, hr, ha, hu, hk, hs⟩
    rw [hs]
    exact State.withdrawBody_head hn hc hq hr ha hu hk
  refine ⟨fun hup h0 h1 hown => ?_, fun h => ?_⟩
  · refine ⟨fun hk => ?_, fun hk hs => ?_, fun hk st hn hc => ⟨fun hno => ?_, fun ahead r behind hq hr ho hs => ?_,
      fun settled hs => State.settlesTo_of ?_⟩⟩
    · rw [exec_withdraw_unknown hk bodyId station hup h0 h1 hown, hlog]
    all_goals rw [exec_withdraw_known hk bodyId station hup h0 h1 hown]
    · rw [State.withdrawBody_noSuchStation hs, hlog]
    · rw [State.withdrawBody_notFound hn hc hno, hlog]
    · rw [hqueued st ahead r behind hn hc hq hr ho hs]
    · rw [hhead st settled hn hc hs]
      rfl
  · refine ⟨fun hs => ?_, fun st hn hc => ⟨fun hno => ?_, fun ahead r behind hq hr ho hs => ?_,
      fun settled hs => State.settlesTo_of ?_⟩⟩
    · rw [exec_withdrawBody h (State.withdrawBody_noSuchStation hs), hlog]
      rfl
    · rw [exec_withdrawBody h (State.withdrawBody_notFound hn hc hno), hlog]
      rfl
    · have answered := exec_withdrawBody h (hqueued st ahead r behind hn hc hq hr ho hs)
      exact answered
    · have answered := exec_withdrawBody h (hhead st settled hn hc hs)
      exact answered

end
end

section
/-! CLEAR STATION (R135 to R141): what an accepted one answers, and what each option does to the head. -/

namespace Sys2Proof.Machine

theorem clearOptionOf?_eq_none {o : Octet} : clearOptionOf? o = none ↔ 2 < o.toNat := by
  unfold clearOptionOf?
  match o.toNat with
  | 0 | 1 | 2 => simp
  | n + 3 => simp

theorem clearOptionOf?_eq {o : Octet} (h : o.toNat ≤ 2) :
    clearOptionOf? o = some (if o = 0 then .retry else if o = 1 then .skip else .abort) := by
  have hcases : o = 0 ∨ o = 1 ∨ o = 2 := by bv_omega
  rcases hcases with rfl | rfl | rfl <;> rfl

/-! ## A station settled once is settled (R17) -/

section Settled

variable {u : State} {st : StationId} {r : BodyRecord} {rest : List BodyRecord}

/-- A station whose head has been released has no head, where the others are QUEUED. -/
theorem State.settleHead_released (hrest : ∀ y ∈ rest, y.state = .queued) (o : BodyOutcome) :
    (u.released st r rest o).settleHead st = u.released st r rest o := by
  have hq : ((u.released st r rest o).station st).queue = rest := by simp [State.released, State.station]
  have hn : (u.released st r rest o).head? st = none := by
    unfold State.head? Station.head?
    rw [hq]
    cases rest with
    | nil => rfl
    | cons y rest => simp [hrest y (.head _)]
  unfold State.settleHead
  rw [hn]

/-- A station that is in the state its head calls for settles to no effect. -/
theorem State.settleHead_of_state (hq : (u.station st).queue = r :: rest) (ha : r.state = .active) (hb : r.bodyHeld = false)
    (hx : ∃ y ∈ r.entries, y.ended = false ∨ y.held = true)
    (hs : (u.station st).state = if ∃ y ∈ r.entries, y.held = true then .held else .dispatching) : u.settleHead st = u := by
  have hn : ¬∀ e ∈ r.entries, e.ended = true ∧ e.held = false := by
    obtain ⟨y, hy, hy'⟩ := hx
    exact fun h => by simp [h y hy] at hy'
  rw [State.settleHead_eq hq ha hb, if_neg hn, ← hs]
  exact State.setStation_self u st

/-- So does a HELD station whose head has its body held mark. -/
theorem State.settleHead_of_bodyHeld (hq : (u.station st).queue = r :: rest) (ha : r.state = .active) (hb : r.bodyHeld = true)
    (hs : (u.station st).state = .held) : u.settleHead st = u := by
  have hh : r.anyHeld = true := by simp [BodyRecord.anyHeld, hb]
  have hr : r.releasable = false := by simp [BodyRecord.releasable, hh]
  unfold State.settleHead
  rw [show u.head? st = some r from Station.head?_eq_some.2 ⟨ha, rest, hq⟩]
  simp only [hr, hh, if_true, Bool.false_eq_true, if_false, State.setStationState, ← hs]
  exact State.setStation_self u st

theorem State.settleHead_settled (hq : (u.station st).queue = r :: rest) (ha : r.state = .active) (hb : r.bodyHeld = false)
    (hx : ∃ y ∈ r.entries, y.ended = false ∨ y.held = true) :
    let settled : State := { u with tracker := { u.tracker with stations := u.tracker.stations.set st { u.station st with
      state := if ∃ y ∈ r.entries, y.held = true then .held else .dispatching } } }
    u.settleHead st = settled ∧ settled.settleHead st = settled := by
  intro settled
  have hn : ¬∀ e ∈ r.entries, e.ended = true ∧ e.held = false := by
    obtain ⟨y, hy, hy'⟩ := hx
    exact fun h => by simp [h y hy] at hy'
  have hstation : settled.station st = { u.station st with
      state := if ∃ y ∈ r.entries, y.held = true then .held else .dispatching } := by simp [settled, State.station]
  exact ⟨by rw [State.settleHead_eq hq ha hb, if_neg hn],
    State.settleHead_of_state (r := r) (rest := rest) (by rw [hstation, hq]) ha hb hx (by rw [hstation])⟩

end Settled

/-! ## What an accepted CLEAR STATION answers (R135, R141) -/

section Accepted

variable {s : State} {e : RequestEntry} {st : StationId} {station option : Octet} {o : ClearOption}
  (h : s.executes (.clearStation station option) e) (hst : s.configuredStation? station = some st)
  (ho : clearOptionOf? option = some o) (held : (s.station st).state = .held)

include h hst ho held

theorem clearStation_settlesTo {settled tested : State} {data : List Octet} (hs : (s.clearHead st o).settleHead st = settled)
    (ht : settled.testStation st = tested) (hd : Octets.nat1 (settled.station st).state.code = data) :
    s.settlesTo (.clearStation station option) settled tested (·.replied e .done data) := by
  refine State.settlesTo_of ?_
  refine event_answer_noticed h ?_
  unfold State.answerClearStation
  rw [hst, ho]
  simp only [held, if_true, State.clearStation, hs, ht, hd]

/-- The head released by the option's acts. -/
theorem clearStation_released {u : State} {r : BodyRecord} {rest : List BodyRecord} {outcome : BodyOutcome}
    (hs : s.clearHead st o = u.released st r rest outcome) (hrest : ∀ y ∈ rest, y.state = .queued) :
    s.settlesTo (.clearStation station option) (u.released st r rest outcome)
      ((u.released st r rest outcome).testStation st) (·.replied e .done [1]) := by
  refine clearStation_settlesTo h hst ho held (by rw [hs, State.settleHead_released hrest]) rfl ?_
  simp [State.released, State.station]
  rfl

/-- The head kept by the option's acts, and released as it settles. -/
theorem clearStation_releases {u : State} {kept : BodyRecord} {rest : List BodyRecord} (hs : s.clearHead st o = u)
    (hq : (u.station st).queue = kept :: rest) (ha : kept.state = .active) (hb : kept.bodyHeld = false)
    (hx : ∀ y ∈ kept.entries, y.ended = true ∧ y.held = false) :
    let settled := u.released st kept rest (if ∃ y ∈ kept.entries, y.state = .faulted then .faulted else .clean)
    s.settlesTo (.clearStation station option) settled (settled.testStation st) (·.replied e .done [1]) := by
  refine clearStation_settlesTo h hst ho held (by rw [hs, State.settleHead_eq hq ha hb, if_pos hx]) rfl ?_
  simp [State.released, State.station]
  rfl

/-- The head kept, and its station HELD or DISPATCHING. -/
theorem clearStation_stays {u : State} {kept : BodyRecord} {rest : List BodyRecord}
    (hs : s.clearHead st o = u ∨ s.clearHead st o = u.settleHead st)
    (hq : (u.station st).queue = kept :: rest) (ha : kept.state = .active) (hb : kept.bodyHeld = false)
    (hx : ∃ y ∈ kept.entries, y.ended = false ∨ y.held = true) :
    let stillHeld := ∃ y ∈ kept.entries, y.held = true
    let settled : State := { u with tracker := { u.tracker with stations := u.tracker.stations.set st { u.station st with
      state := if stillHeld then .held else .dispatching } } }
    s.settlesTo (.clearStation station option) settled settled (·.replied e .done [if stillHeld then 3 else 2]) := by
  intro stillHeld settled
  obtain ⟨h1, h2⟩ := State.settleHead_settled hq ha hb hx
  have hstate : (settled.station st).state = if stillHeld then .held else .dispatching := by simp [settled, State.station]
  refine clearStation_settlesTo h hst ho held ?_ (State.testStation_of_not_canStart (State.canStart_of_not_idle ?_)) ?_
  · rcases hs with hs | hs
    · rw [hs, h1]
    · rw [hs, h1, h2]
  · rw [hstate]
    split <;> decide
  · rw [hstate]
    split <;> rfl

/-- The head kept with work left and no held mark: its station DISPATCHING. -/
theorem clearStation_dispatches {u : State} {kept : BodyRecord} {rest : List BodyRecord} (hs : s.clearHead st o = u)
    (hq : (u.station st).queue = kept :: rest) (ha : kept.state = .active) (hb : kept.bodyHeld = false)
    (hx : ∃ y ∈ kept.entries, y.ended = false) (hn : ∀ y ∈ kept.entries, y.held = false) :
    let settled : State := { u with tracker := { u.tracker with stations := u.tracker.stations.set st { u.station st with
      state := .dispatching } } }
    s.settlesTo (.clearStation station option) settled settled (·.replied e .done [2]) := by
  have hheld : ¬∃ y ∈ kept.entries, y.held = true := fun ⟨y, hy, hy'⟩ => by simp [hn y hy] at hy'
  obtain ⟨y, hy, hy'⟩ := hx
  have k := clearStation_stays h hst ho held (.inl hs) hq ha hb ⟨y, hy, .inl hy'⟩
  simpa only [if_neg hheld] using k

end Accepted

/-! ## What an option does to the head (R136 to R140) -/

section ClearHead

variable {s u : State} {st : StationId} {r kept : BodyRecord} {rest rest' : List BodyRecord}

theorem State.head?_of_queue (hq : (s.station st).queue = r :: rest) (ha : r.state = .active) : s.head? st = some r :=
  Station.head?_eq_some.2 ⟨ha, rest, hq⟩

theorem State.entrySlots_eq (hq : (s.station st).queue = r :: rest) (ha : r.state = .active) :
    s.entrySlots st = r.entries.map fun x => slotOf st x.position := by
  unfold State.entrySlots
  rw [State.head?_of_queue hq ha]

/-- RETRY and SKIP of a head without a body held mark go entry by entry. -/
theorem State.clearHead_retry (hq : (s.station st).queue = r :: rest) (ha : r.state = .active)
    (hu : (r.entries.map fun x => slotOf st x.position).foldl State.retried s = u)
    (hk : (u.station st).queue = kept :: rest') (hka : kept.state = .active) (hkb : kept.bodyHeld = false) :
    s.clearHead st .retry = u := by
  have hf : State.retryEntry = State.retried := by
    funext s g
    exact State.retryEntry_eq s g
  simp only [State.clearHead, State.entrySlots_eq hq ha, hf, hu, State.retryBody, State.head?_of_queue hk hka, hkb, if_true]

theorem State.clearHead_skip (hq : (s.station st).queue = r :: rest) (ha : r.state = .active)
    (hu : (r.entries.map fun x => slotOf st x.position).foldl State.skipped s = u)
    (hk : (u.station st).queue = kept :: rest') (hka : kept.state = .active) (hkb : kept.bodyHeld = false) :
    s.clearHead st .skip = u := by
  have hf : State.skipEntry = State.skipped := by
    funext s g
    exact State.skipEntry_eq s g
  simp only [State.clearHead, State.entrySlots_eq hq ha, hf, hu, State.skipBody, State.head?_of_queue hk hka, hkb,
    Bool.false_eq_true, if_false]

/-- A head without its body held mark released for Unknown Style. -/
theorem State.releaseHead_unheld (hq : (s.station st).queue = r :: rest) (ha : r.state = .active) :
    (s.modifyHead st BodyRecord.unheld).releaseHead st .unknownStyle =
      s.released st { r with bodyHeld := false } rest .faulted := by
  unfold State.modifyHead
  rw [Station.modifyHead_of_head? _ hq ha]
  rw [State.releaseHead_eq (r := { r with bodyHeld := false }) (rest := rest) (outcome := .faulted) (by simp; rfl) ha rfl]
  exact State.released_setStation ..

theorem State.clearHead_skip_body (hq : (s.station st).queue = r :: rest) (ha : r.state = .active) (he : r.entries = [])
    (hb : r.bodyHeld = true) : s.clearHead st .skip = s.released st { r with bodyHeld := false } rest .faulted := by
  rw [← State.releaseHead_unheld hq ha]
  simp [State.clearHead, State.entrySlots_eq hq ha, he, State.skipBody, State.head?_of_queue hq ha, hb]

/-- RETRY of a head held for Unknown Style whose style no row of the ACTIVE bank has (R138). -/
theorem State.clearHead_retry_unknown (hq : (s.station st).queue = r :: rest) (ha : r.state = .active) (he : r.entries = [])
    (hb : r.bodyHeld = true) (hrow : (s.banks.tables s.banks.active).styleRow? r.style = none) :
    s.clearHead st .retry =
      if s.mode st .unknownStyle = .pass then s.released st { r with bodyHeld := false } rest .faulted else s.holdBody st := by
  rw [← State.releaseHead_unheld hq ha]
  simp [State.clearHead, State.entrySlots_eq hq ha, he, State.retryBody, State.head?_of_queue hq ha, hb, hrow]

/-- The part after a body has left the tag `tag` for the ACTIVE bank's, where `tagged` counts the tags: a DRAINING bank that has
lost its last record is SHADOW (R48, R138). -/
def State.drainedOf (s : State) (tag : BankId) (tagged : State) : State :=
  if tag ≠ s.banks.active ∧ s.banks.other = .draining ∧ tagged.tagCount s.banks.active.other = 0 then
    { s with
      banks := { s.banks with other := .shadow, loadIncomplete := false }
      events := { s.events with flags := s.events.flags ||| (1#29 <<< 10) } }
  else s

theorem State.drainedOf_resolutions (s : State) (tag : BankId) (tagged : State) (st : StationId) (bank : BankId)
    (row variant : Nat) (options : BitVec 16) :
    (s.drainedOf tag tagged).resolutions st bank row variant options = s.resolutions st bank row variant options := by
  unfold State.drainedOf
  split <;> rfl

theorem State.drainedOf_startedEntry (s : State) (tag : BankId) (tagged : State) (g : SlotId) (x : Resolution) :
    (s.drainedOf tag tagged).startedEntry g x = s.startedEntry g x := by
  unfold State.drainedOf
  split <;> rfl

theorem State.drainedOf_station (s : State) (tag : BankId) (tagged : State) (st : StationId) :
    (s.drainedOf tag tagged).station st = s.station st := by
  unfold State.drainedOf
  split <;> rfl

/-- RETRY of a head held for Unknown Style whose style a row of the ACTIVE bank has (R138): the head put under way anew. -/
theorem State.clearHead_retry_known {row : Nat} (hq : (s.station st).queue = r :: rest) (ha : r.state = .active)
    (he : r.entries = []) (hb : r.bodyHeld = true) (hrow : (s.banks.tables s.banks.active).styleRow? r.style = some row) :
    let fresh : BodyRecord := { r with
      row := some row, bankTag := s.banks.active, bodyHeld := false, startedAt := some s.lineTime }
    let base := s.drainedOf r.bankTag (s.setStation st { s.station st with queue := fresh :: rest })
    s.clearHead st .retry = (base.setStation st { base.station st with queue := fresh :: rest }).runHead st := by
  intro fresh base
  have hm : s.modifyHead st (fun r => { r with
      row := some row, bankTag := s.banks.active, bodyHeld := false, startedAt := some s.lineTime }) =
      s.setStation st { s.station st with queue := fresh :: rest } := by
    unfold State.modifyHead
    rw [Station.modifyHead_of_head? _ hq ha]
  have hbase : (if r.bankTag = s.banks.active then s.setStation st { s.station st with queue := fresh :: rest }
      else (s.setStation st { s.station st with queue := fresh :: rest }).drainTest) =
      base.setStation st { base.station st with queue := fresh :: rest } := by
    simp only [base, State.drainedOf_station]
    generalize hx : s.setStation st { s.station st with queue := fresh :: rest } = tagged
    unfold State.drainedOf State.drainTest
    have hbanks : tagged.banks = s.banks := by rw [← hx, State.setStation_banks]
    rw [hbanks]
    by_cases ht : r.bankTag = s.banks.active
    · rw [if_pos ht, if_neg fun k => k.1 ht, hx]
    · rw [if_neg ht]
      by_cases hd : s.banks.other = .draining ∧ tagged.tagCount s.banks.active.other = 0
      · rw [if_pos hd, if_pos ⟨ht, hd⟩, ← hx]
        rfl
      · rw [if_neg hd, if_neg fun k => hd k.2, hx]
  rw [← hbase, ← hm]
  simp [State.clearHead, State.entrySlots_eq hq ha, he, State.retryBody, State.head?_of_queue hq ha, hb, hrow]

end ClearHead

end Sys2Proof.Machine
end

section
/-! CLEAR STATION on a head of one held entry (R136, R137, R139), and its statement. -/

namespace Sys2Proof.Machine

/-- A warning that is set in any case absorbs the same warning set on a condition. -/
theorem or_warning (f a w : BitVec 29) (c : Prop) [Decidable c] : ((f ||| a) ||| if c then w else 0) ||| w = f ||| (w ||| a) := by
  split
  · rw [BitVec.or_assoc, BitVec.or_self, BitVec.or_assoc, BitVec.or_comm a w]
  · rw [show (0 : BitVec 29) = 0#29 from rfl, BitVec.or_zero, BitVec.or_assoc, BitVec.or_comm a w]

/-! ## The one entry of a head -/

section OneEntry

variable {s u : State} {st : StationId} {r : BodyRecord} {rest : List BodyRecord} {x : SlotEntry}

theorem BodyRecord.modifyEntry_single (he : r.entries = [x]) (f : SlotEntry → SlotEntry) :
    r.modifyEntry x.position f = { r with entries := [f x] } := by
  simp [BodyRecord.modifyEntry, he]

theorem State.entry?_single (hq : (s.station st).queue = r :: rest) (ha : r.state = .active) (he : r.entries = [x]) :
    s.entry? (slotOf st x.position) = some x := by
  rw [State.entry?_of_head? (r := r) (by rw [stationOf_slotOf]; exact State.head?_of_queue hq ha), positionOf_slotOf]
  simp [BodyRecord.entry?, he]

theorem State.modifyEntry_single (hq : (s.station st).queue = r :: rest) (ha : r.state = .active) (he : r.entries = [x])
    (f : SlotEntry → SlotEntry) : s.modifyEntry (slotOf st x.position) f =
      s.setStation st { s.station st with queue := { r with entries := [f x] } :: rest } := by
  unfold State.modifyEntry State.modifyHead
  rw [stationOf_slotOf, positionOf_slotOf, Station.modifyHead_of_head? _ hq ha, BodyRecord.modifyEntry_single he]

/-- The same of a state that shares the queues. -/
theorem State.modifyEntry_single_of {v : State} (hv : v.tracker = s.tracker) (hq : (s.station st).queue = r :: rest)
    (ha : r.state = .active) (he : r.entries = [x]) (f : SlotEntry → SlotEntry) : v.modifyEntry (slotOf st x.position) f =
      { v with tracker := { s.tracker with stations := s.tracker.stations.set st { s.station st with
        queue := { r with entries := [f x] } :: rest } } } := by
  have hs : v.station st = s.station st := by
    unfold State.station
    rw [hv]
  rw [State.modifyEntry_single (s := v) (by rw [hs, hq]) ha he]
  unfold State.setStation State.setTracker
  rw [hv, hs]

/-- One held entry under SKIP. -/
theorem State.skipped_single (hq : (s.station st).queue = r :: rest) (ha : r.state = .active) (he : r.entries = [x])
    (hx : x.held = true) (hc : x.state ≠ .cancelled) :
    let u := if (x.state = .selected ∨ x.state = .loaded) ∧ (s.tagState (slotOf st x.position)).current ≠ 0 then
      s.calledOff (slotOf st x.position) else s
    s.skipped (slotOf st x.position) = u.setStation st { u.station st with
      queue := { r with entries := [{ x with state := .faulted, held := false }] } :: rest } := by
  intro u
  have hu : (u.station st).queue = r :: rest := by
    rw [← hq]
    simp only [u]
    split <;> rfl
  unfold State.skipped
  rw [State.entry?_single hq ha he]
  simp only [hx, Bool.true_eq_false, if_false]
  exact (State.modifyEntry_single hu ha he _).trans (by rw [if_neg hc])

/-- One held FINISHED entry under RETRY. -/
theorem State.retried_finished (hq : (s.station st).queue = r :: rest) (ha : r.state = .active) (he : r.entries = [x])
    (hx : x.held = true) (hf : x.state = .finished) : s.retried (slotOf st x.position) =
      s.setStation st { s.station st with
        queue := { r with entries := [{ x with state := .faulted, held := false }] } :: rest } := by
  unfold State.retried
  rw [State.entry?_single hq ha he, stationOf_slotOf, State.head?_of_queue hq ha]
  simp only [hx, Bool.true_eq_false, if_false, hf]
  rw [State.modifyEntry_single hq ha he]

/-- One held LOADED entry under RETRY. -/
theorem State.retried_loaded (hq : (s.station st).queue = r :: rest) (ha : r.state = .active) (he : r.entries = [x])
    (hx : x.held = true) (hf : x.state = .loaded) : s.retried (slotOf st x.position) =
      State.flagged
        { s with
          tags := s.tags.set (slotOf st x.position) { s.tagState (slotOf st x.position) with cycleTimer := none }
          tracker := { s.tracker with stations := s.tracker.stations.set st { s.station st with
            queue := { r with entries := [{ x with held := false, warned := true }] } :: rest } } }
        (1#29 <<< (4 + st.val)) := by
  unfold State.retried
  rw [State.entry?_single hq ha he, stationOf_slotOf, State.head?_of_queue hq ha]
  conv_lhs => simp only [hx, Bool.true_eq_false, if_false, hf]
  rw [State.modifyEntry_single (s := { s with
    tags := s.tags.set (slotOf st x.position) { s.tagState (slotOf st x.position) with cycleTimer := none } }) hq ha he]
  rfl

/-- The one entry of a head selected anew. -/
theorem State.reselected_single (hq : (s.station st).queue = r :: rest) (ha : r.state = .active) (he : r.entries = [x]) :
    let g := slotOf st x.position
    let t := s.tagState g
    s.reselected g =
      { s with
        tracker := { s.tracker with stations := s.tracker.stations.set st { s.station st with
          queue := { r with entries := [{ x with tag := some t.next, state := .selected, readyAt := none }] } :: rest } }
        ports := { s.ports with
          cellOwn := (s.ports.cellOwn.filter fun z => z.slot ≠ g) ++
            [⟨g, ⟨(s.robotNode? g).getD 0, s.filter.ownNode, s.filter.protocolType⟩,
              .select ⟨t.next, r.bodyId, x.program.getD 0, (s.station st).dry, x.dressRequested, x.wearUnconfirmed,
                x.groups⟩⟩] }
        tags := s.tags.set g
          { next := if t.next = 65535 then 1 else t.next + 1
            current := t.next
            cancelled := if t.current = 0 then t.cancelled else t.current
            owned := true, readyTimer := none, cycleTimer := none } } := by
  intro g t
  unfold State.reselected
  rw [State.entry?_single hq ha he, stationOf_slotOf, State.head?_of_queue hq ha]
  exact State.modifyEntry_single_of (s := s) (by rfl) hq ha he _

/-- One held WAITING or SELECTED entry under RETRY that resolves without a fault: selected anew, and warned. -/
theorem State.retried_reselected {row : Nat} {y : Resolution} (hq : (s.station st).queue = r :: rest) (ha : r.state = .active)
    (he : r.entries = [x]) (hx : x.held = true) (hs : x.state = .waiting ∨ x.state = .selected) (hrow : r.row = some row)
    (hy : resolve (s.banks.tables r.bankTag) (s.gun (slotOf st x.position)) (s.mode st .wearOverrun != .off) row r.variant
      r.options (slotOf st x.position) = some y) (hf : y.fault = none) :
    let g := slotOf st x.position
    let tag := (s.tagState g).next
    s.retried g =
      { s with
        resolver := ⟨[], []⟩
        tracker := { s.tracker with stations := s.tracker.stations.set st { s.station st with
          queue := { r with entries := [{ y.selected g tag with
            warned := true, refusalReason := x.refusalReason, spotsWelded := x.spotsWelded
            selectedAt := x.selectedAt }] } :: rest } }
        ports := { s.ports with
          cellOwn := (s.ports.cellOwn.filter fun z => z.slot ≠ g) ++
            [⟨g, ⟨(s.robotNode? g).getD 0, s.filter.ownNode, s.filter.protocolType⟩,
              .select ⟨tag, r.bodyId, y.program.getD 0, (s.station st).dry, y.dressRequested, y.wearUnconfirmed,
                y.groups⟩⟩] }
        tags := s.tags.set g
          { next := if tag = 65535 then 1 else tag + 1
            current := tag
            cancelled := if (s.tagState g).current = 0 then (s.tagState g).cancelled else (s.tagState g).current
            owned := true, readyTimer := none, cycleTimer := none }
        guns := s.guns.set g { s.gun g with
          dressDue := (s.gun g).dressDue || (y.consulted && y.dressRequested) }
        events := { s.events with
          flags := s.events.flags ||| ((1#29 <<< (4 + st.val)) |||
            (if y.consulted = true ∧ y.wearUnconfirmed = true then 1#29 <<< 19 else 0)) } } := by
  intro g tag
  have hstart : s.retried g = s.retriedSelection g r x := by
    unfold State.retried
    rw [State.entry?_single hq ha he, stationOf_slotOf, State.head?_of_queue hq ha]
    rcases hs with hs | hs <;> simp only [hx, Bool.true_eq_false, if_false, hs]
  rw [hstart]
  unfold State.retriedSelection
  rw [stationOf_slotOf, hrow]
  simp only [Option.bind_some]
  rw [hy]
  simp only [hf]
  rw [State.modifyEntry_single_of (s := s) (v := s.resolvedAt g y) rfl hq ha he]
  generalize hv : State.flagged _ _ = v
  have hstation : v.station st = { s.station st with
      queue := { r with entries := [{ x.reresolved y with held := false, warned := true }] } :: rest } := by
    rw [← hv]
    exact Vector.getElem_set_self _
  have k := State.reselected_single (s := v) (st := st) (x := { x.reresolved y with held := false, warned := true })
    (r := { r with entries := [{ x.reresolved y with held := false, warned := true }] }) (rest := rest) (by rw [hstation]) ha rfl
  refine Eq.trans k ?_
  rw [hstation, ← hv]
  refine State.ext_fields rfl rfl rfl rfl rfl ?_ rfl rfl rfl rfl rfl rfl ?_ rfl rfl rfl
  · simp [State.flagged, Resolution.selected, SlotEntry.reresolved, g]
    rw [← hrow]
    rfl
  · simp only [State.flagged, State.resolvedAt, Bool.and_eq_true, g, stationOf_slotOf, or_warning]

end OneEntry

end Sys2Proof.Machine
end

section
/-! CLEAR STATION clause by clause (R135 to R141). -/

namespace Sys2Proof.Machine

variable {s : State} {e : RequestEntry} {st : StationId} {station option : Octet} {r kept : BodyRecord} {rest : List BodyRecord}
  {x : SlotEntry}

theorem clearStation_badParameter (h : s.executes (.clearStation station option) e)
    (hb : 3 < station.toNat ∨ s.tracker.stationCount ≤ station.toNat ∨ 2 < option.toNat) :
    exec (.clearStation station option) s = .next (s.replied e .badParameter []) := by
  refine event_of_executes_refused h ?_
  unfold State.answerClearStation
  split
  · next st o hst ho =>
    obtain ⟨hn, hlt⟩ := State.configuredStation?_eq_some.1 hst
    have ho' : ¬2 < option.toNat := fun k => by rw [clearOptionOf?_eq_none.2 k] at ho; cases ho
    omega
  · rfl

theorem clearStation_wrongState (h : s.executes (.clearStation station option) e)
    (hst : s.configuredStation? station = some st) (ho : option.toNat ≤ 2) (hs : (s.station st).state ≠ .held) :
    exec (.clearStation station option) s = .next (s.replied e .wrongState []) := by
  refine event_of_executes_refused h ?_
  unfold State.answerClearStation
  rw [hst, clearOptionOf?_eq ho]
  simp only [if_neg hs]
  rfl

theorem State.queue_setQueue (s : State) (st : StationId) (q : List BodyRecord) :
    ((s.setStation st { s.station st with queue := q }).station st).queue = q := by simp

/-- RETRY and SKIP leave what their folds over the entries leave. -/
theorem clearHead_entries (hopt : option = 0 ∨ option = 1) {u : State} (hq : (s.station st).queue = r :: rest)
    (ha : r.state = .active)
    (hu : (r.entries.map fun x => slotOf st x.position).foldl (if option = 0 then State.retried else State.skipped) s = u)
    (hk : (u.station st).queue = kept :: rest) (hka : kept.state = .active) (hkb : kept.bodyHeld = false) :
    ∃ o, clearOptionOf? option = some o ∧ s.clearHead st o = u := by
  rcases hopt with rfl | rfl
  · exact ⟨.retry, rfl, State.clearHead_retry hq ha hu hk hka hkb⟩
  · exact ⟨.skip, rfl, State.clearHead_skip hq ha hu hk hka hkb⟩

/-- A head released where no Mirror Channel takes the record. -/
theorem State.released_of_unmirrored (h : s.unmirrored st .release) (outcome : BodyOutcome) :
    s.released st r rest outcome =
      { s with
        tracker := { s.tracker with stations := s.tracker.stations.set st { s.station st with
          state := .idle, queue := rest, counters := (s.station st).counters.released outcome } }
        tags := (s.disown st).tags
        ports := { s.ports with uplinkOwn := s.ports.uplinkOwn ++ [.release (s.envelopeTo s.reportNode)
          { r with station := st, state := .releasing, releasedAt := some s.lineTime, outcome := some outcome }] } } :=
  State.mirror_of_unmirrored (content := .release _) h

section Held

variable (h : s.executes (.clearStation station option) e) (hst : s.configuredStation? station = some st)
  (held : (s.station st).state = .held)

include h hst held

/-! ## Entry by entry (R136, R137, R139) -/

/-- The one entry of a head made FAULTED, and the head released FAULTED. -/
theorem clearStation_faulted {o : ClearOption} {u : State} (ho : clearOptionOf? option = some o) (ha : r.state = .active)
    (hb : r.bodyHeld = false) (hs : s.clearHead st o = u.setStation st { u.station st with
      queue := { r with entries := [{ x with state := .faulted, held := false }] } :: rest }) :
    let settled := u.released st { r with entries := [{ x with state := .faulted, held := false }], bodyHeld := false } rest
      .faulted
    s.settlesTo (.clearStation station option) settled (settled.testStation st) (·.replied e .done [1]) := by
  have k := clearStation_releases h hst ho held hs (kept := { r with
    entries := [{ x with state := .faulted, held := false }] }) (rest := rest) (by simp) ha hb (by simp [SlotEntry.ended])
  rw [State.released_setStation] at k
  simpa [hb] using k

/-- RETRY of a head of one held entry that stays to be worked on: its station DISPATCHING. -/
theorem clearStation_retry_one {u settled : State} {x' : SlotEntry} (ho : option = 0) (hq : (s.station st).queue = r :: rest)
    (ha : r.state = .active) (hb : r.bodyHeld = false) (he : r.entries = [x]) (hu : s.retried (slotOf st x.position) = u)
    (hstation : u.station st = { s.station st with queue := { r with entries := [x'] } :: rest }) (hx : x'.ended = false)
    (hh : x'.held = false) (hsettled : settled = { u with tracker := { u.tracker with
      stations := u.tracker.stations.set st { s.station st with
        state := .dispatching, queue := { r with entries := [x'] } :: rest } } }) :
    s.settlesTo (.clearStation station option) settled settled (·.replied e .done [2]) := by
  have hfold : (r.entries.map fun x => slotOf st x.position).foldl State.retried s = u := by
    rw [he, ← hu]
    rfl
  have hk : (u.station st).queue = { r with entries := [x'] } :: rest := by rw [hstation]
  have k := clearStation_dispatches h hst (by rw [ho]; rfl) held (State.clearHead_retry hq ha hfold hk ha hb) hk ha hb
    ⟨_, .head _, hx⟩ (by simpa using hh)
  rw [hstation] at k
  rw [hsettled]
  exact k

/-- RETRY of a head of one held LOADED entry (R136). -/
theorem clearStation_retry_loaded (ho : option = 0) (hq : (s.station st).queue = r :: rest) (ha : r.state = .active)
    (hb : r.bodyHeld = false) (he : r.entries = [x]) (hx : x.held = true) (hl : x.state = .loaded) :
    let g := slotOf st x.position
    let settled := { s with
      tags := s.tags.set g { s.tagState g with cycleTimer := none }
      tracker := { s.tracker with stations := s.tracker.stations.set st { s.station st with
        state := .dispatching, queue := { r with entries := [{ x with held := false, warned := true }] } :: rest } }
      events := { s.events with flags := s.events.flags ||| (1#29 <<< (4 + st.val)) } }
    s.settlesTo (.clearStation station option) settled settled (·.replied e .done [2]) := by
  intro g settled
  refine clearStation_retry_one h hst held ho hq ha hb he (State.retried_loaded hq ha he hx hl)
    (Vector.getElem_set_self _) (x' := { x with held := false, warned := true }) (by simp [SlotEntry.ended, hl]) rfl ?_
  refine State.ext_fields rfl rfl rfl rfl rfl ?_ rfl rfl rfl rfl rfl rfl rfl rfl rfl rfl
  simp [settled, State.flagged]

/-- RETRY of a head of one held WAITING or SELECTED entry that resolves without a fault (R137). -/
theorem clearStation_retry_reselected {row : Nat} {y : Resolution} (ho : option = 0) (hq : (s.station st).queue = r :: rest)
    (ha : r.state = .active) (hb : r.bodyHeld = false) (he : r.entries = [x]) (hx : x.held = true)
    (hs : x.state = .waiting ∨ x.state = .selected) (hrow : r.row = some row)
    (hy : resolve (s.banks.tables r.bankTag) (s.gun (slotOf st x.position)) (s.mode st .wearOverrun != .off) row r.variant
      r.options (slotOf st x.position) = some y) (hf : y.fault = none) :
    let g := slotOf st x.position
    let tag := (s.tagState g).next
    let settled := { s with
      resolver := ⟨[], []⟩
      tracker := { s.tracker with stations := s.tracker.stations.set st { s.station st with
        state := .dispatching
        queue := { r with entries := [{ y.selected g tag with
          warned := true, refusalReason := x.refusalReason, spotsWelded := x.spotsWelded
          selectedAt := x.selectedAt }] } :: rest } }
      ports := { s.ports with
        cellOwn := (s.ports.cellOwn.filter fun z => z.slot ≠ g) ++
          [⟨g, ⟨(s.robotNode? g).getD 0, s.filter.ownNode, s.filter.protocolType⟩,
            .select ⟨tag, r.bodyId, y.program.getD 0, (s.station st).dry, y.dressRequested, y.wearUnconfirmed,
              y.groups⟩⟩] }
      tags := s.tags.set g
        { next := if tag = 65535 then 1 else tag + 1
          current := tag
          cancelled := if (s.tagState g).current = 0 then (s.tagState g).cancelled else (s.tagState g).current
          owned := true, readyTimer := none, cycleTimer := none }
      guns := s.guns.set g { s.gun g with
        dressDue := (s.gun g).dressDue || (y.consulted && y.dressRequested) }
      events := { s.events with
        flags := s.events.flags ||| ((1#29 <<< (4 + st.val)) |||
          (if y.consulted = true ∧ y.wearUnconfirmed = true then 1#29 <<< 19 else 0)) } }
    s.settlesTo (.clearStation station option) settled settled (·.replied e .done [2]) := by
  intro g tag settled
  refine clearStation_retry_one h hst held ho hq ha hb he (State.retried_reselected hq ha he hx hs hrow hy hf)
    (Vector.getElem_set_self _) (x' := { y.selected g tag with
      warned := true, refusalReason := x.refusalReason, spotsWelded := x.spotsWelded, selectedAt := x.selectedAt }) rfl rfl ?_
  refine State.ext_fields rfl rfl rfl rfl rfl ?_ rfl rfl rfl rfl rfl rfl rfl rfl rfl rfl
  simp [settled, g, tag]

/-! ## A head held for Unknown Style (R138, R139) -/

/-- RETRY where the ACTIVE bank has a row for the style: the head put under way afresh. -/
theorem clearStation_retry_known {row : Nat} (ho : option = 0) (hq : (s.station st).queue = r :: rest) (ha : r.state = .active)
    (hb : r.bodyHeld = true) (he : r.entries = []) (hrow : (s.banks.tables s.banks.active).styleRow? r.style = some row) :
    let fresh : BodyRecord := { r with
      row := some row, bankTag := s.banks.active, bodyHeld := false, startedAt := some s.lineTime }
    let found := s.resolutions st s.banks.active row r.variant r.options
    let base := s.drainedOf r.bankTag (s.setStation st { s.station st with queue := fresh :: rest })
    let head : BodyRecord := { fresh with entries := found.map fun x => s.startedEntry x.1 x.2 }
    let u := base.startedHead st fresh rest found
    u.station st = { s.station st with headLimit := (s.station st).readyLimit, queue := head :: rest } ∧
    ((∀ y ∈ head.entries, y.ended = true ∧ y.held = false) → (∀ y ∈ rest, y.state = .queued) →
      let settled := u.released st head rest (if ∃ y ∈ head.entries, y.state = .faulted then .faulted else .clean)
      s.settlesTo (.clearStation station option) settled (settled.testStation st) (·.replied e .done [1])) ∧
    ((∃ y ∈ head.entries, y.ended = false ∨ y.held = true) →
      let stillHeld := ∃ y ∈ head.entries, y.held = true
      let settled := { u with tracker := { u.tracker with
        stations := u.tracker.stations.set st { u.station st with
          state := if stillHeld then .held else .dispatching } } }
      s.settlesTo (.clearStation station option) settled settled
        (·.replied e .done [if stillHeld then 3 else 2])) ∧
    (found ≠ [] → (∀ y ∈ found, y.2.fault = none) →
      let settled := base.selecting st fresh rest found
      s.settlesTo (.clearStation station option) settled settled (·.replied e .done [2])) := by
  intro fresh found base head u
  have hretry : clearOptionOf? option = some .retry := by rw [ho]; rfl
  have hclear : s.clearHead st .retry = (base.setStation st { base.station st with queue := fresh :: rest }).runHead st :=
    State.clearHead_retry_known hq ha he hb hrow
  obtain ⟨hrun, hu⟩ := State.runHead_setQueue (s := base) (st := st) (r := fresh) (rest := rest) (row := row) he ha rfl
  have hfound : base.resolutions st fresh.bankTag row fresh.variant fresh.options = found := State.drainedOf_resolutions ..
  rw [hfound] at hrun hu
  simp only [base, State.drainedOf_startedEntry, State.drainedOf_station] at hu
  rw [hrun] at hclear
  have hq' : (u.station st).queue = head :: rest := by rw [hu]
  refine ⟨hu, fun hx hrest => ?_, fun hx => ?_, fun hn hf => ?_⟩
  · exact clearStation_released h hst hretry held (hclear.trans (by rw [State.settleHead_eq hq' ha rfl, if_pos hx])) hrest
  · exact clearStation_stays h hst hretry held (.inr hclear) hq' ha rfl hx
  · have hsel := State.runHead_setQueue_selecting (s := base) (st := st) (r := fresh) (rest := rest) (row := row) he rfl ha rfl
      (by rw [hfound]; exact hn) (by rw [hfound]; exact hf)
    rw [hfound, hrun, ← hclear] at hsel
    have hstation : (base.selecting st fresh rest found).station st = { s.station st with
        state := .dispatching
        headLimit := (s.station st).readyLimit
        queue := { fresh with entries := found.map fun y => y.2.selected y.1 (base.tagState y.1).next } :: rest } := by
      simp only [base, State.selecting, State.drainedOf_station]
      exact Vector.getElem_set_self _
    obtain ⟨y, hy⟩ := List.exists_mem_of_ne_nil _ hn
    have hno : ¬∃ z ∈ found.map fun y => y.2.selected y.1 (base.tagState y.1).next, z.held = true := by
      simp [Resolution.selected]
    have hsettle := State.settleHead_of_state (u := base.selecting st fresh rest found) (st := st)
      (r := { fresh with entries := found.map fun y => y.2.selected y.1 (base.tagState y.1).next }) (rest := rest)
      (by rw [hstation]) ha rfl ⟨_, List.mem_map_of_mem hy, .inl rfl⟩ (by rw [hstation, if_neg hno])
    refine clearStation_settlesTo h hst hretry held (by rw [hsel, hsettle]) (State.testStation_of_not_canStart
      (State.canStart_of_not_idle (by simp [hstation]))) (by rw [hstation]; rfl)

/-- RETRY where the ACTIVE bank has no row for the style: held on, or released FAULTED (R138). -/
theorem clearStation_retry_unknown (ho : option = 0) (hq : (s.station st).queue = r :: rest) (ha : r.state = .active)
    (hb : r.bodyHeld = true) (he : r.entries = []) (hrow : (s.banks.tables s.banks.active).styleRow? r.style = none) :
    (s.mode st .unknownStyle ≠ .pass →
      let settled := s.flagged (1#29 <<< st.val)
      s.settlesTo (.clearStation station option) settled settled (·.replied e .done [3])) ∧
    (s.mode st .unknownStyle = .pass → (∀ y ∈ rest, y.state = .queued) →
      let settled := s.released st { r with bodyHeld := false } rest .faulted
      s.settlesTo (.clearStation station option) settled (settled.testStation st) (·.replied e .done [1])) := by
  have hretry : clearOptionOf? option = some .retry := by rw [ho]; rfl
  have hclear := State.clearHead_retry_unknown hq ha he hb hrow
  refine ⟨fun hm => ?_, fun hm hrest => ?_⟩
  · rw [if_neg hm, State.holdBody_eq hq ha] at hclear
    have hstays : s.clearHead st .retry = s.flagged (1#29 <<< st.val) := by
      rw [hclear, ← hb, ← held, ← hq]
      exact congrArg (fun t : State => t.flagged (1#29 <<< st.val)) (State.setStation_self s st)
    refine clearStation_settlesTo h hst hretry held (by rw [hstays]; exact State.settleHead_of_bodyHeld hq ha hb held)
      (State.testStation_of_not_canStart (State.canStart_of_not_idle ?_)) ?_
    · show (s.station st).state ≠ .idle
      rw [held]
      decide
    · show Octets.nat1 (s.station st).state.code = [3]
      rw [held]
      rfl
  · exact clearStation_released h hst hretry held (by rw [hclear, if_pos hm]) hrest

/-! ## A head given up (R139, R140) -/

theorem clearStation_givesUp {u : State} {outcome : BodyOutcome} (hq : (s.station st).queue = r :: rest) (ha : r.state = .active)
    (hrest : ∀ y ∈ rest, y.state = .queued)
    (hcase : (option = 1 ∧ r.bodyHeld = true ∧ r.entries = [] ∧ u = s ∧ kept = r ∧ outcome = .faulted) ∨
      (∃ x, r.entries = [x] ∧ r.bodyHeld = false ∧ x.held = true ∧
        (option = 1 ∧ (x.state = .waiting ∨ x.state = .selected ∨ x.state = .loaded ∨ x.state = .finished) ∨
          option = 0 ∧ x.state = .finished) ∧
        u = (if (x.state = .selected ∨ x.state = .loaded) ∧ (s.tagState (slotOf st x.position)).current ≠ 0 then
          s.calledOff (slotOf st x.position) else s) ∧
        kept = { r with entries := [{ x with state := .faulted, held := false }] } ∧ outcome = .faulted) ∨
      (option = 2 ∧ u = (r.entries.map fun x => slotOf st x.position).foldl State.givenUp s ∧
        (u.station st).queue = kept :: rest ∧ kept.state = .active ∧ outcome = .aborted)) :
    let settled := u.released st { kept with bodyHeld := false } rest outcome
    s.settlesTo (.clearStation station option) settled (settled.testStation st) (·.replied e .done [1]) := by
  rcases hcase with ⟨h1, hb, he, hu, hk, hout⟩ | ⟨x, he, hb, hx, hopt, hu, hk, hout⟩ | ⟨h2, hu, hk, hka, hout⟩
  · rw [hu, hk, hout]
    exact clearStation_released h hst (o := .skip) (by rw [h1]; rfl) held (State.clearHead_skip_body hq ha he hb) hrest
  · rw [hk, hout]
    rcases hopt with ⟨h1, hs⟩ | ⟨h0, hs⟩
    · have hsingle := State.skipped_single hq ha he hx (by rcases hs with hs | hs | hs | hs <;> rw [hs] <;> decide)
      rw [← hu] at hsingle
      exact clearStation_faulted h hst held (o := .skip) (by rw [h1]; rfl) ha hb
        (State.clearHead_skip hq ha (by rw [he]; exact hsingle) (State.queue_setQueue ..) ha hb)
    · have hus : u = s := by rw [hu, if_neg (by simp [hs])]
      rw [hus]
      have hsingle := State.retried_finished hq ha he hx hs
      exact clearStation_faulted h hst held (o := .retry) (by rw [h0]; rfl) ha hb
        (State.clearHead_retry hq ha (by rw [he]; exact hsingle) (State.queue_setQueue ..) ha hb)
  · rw [hout]
    rw [hu] at hk ⊢
    exact clearStation_released h hst (o := .abort) (by rw [h2]; rfl) held (State.abortHead_eq hq ha hk hka) hrest

/-- SKIP and ABORT of the only body of a station, held for Unknown Style, where no Mirror Channel takes its RELEASE. -/
theorem clearStation_releases_unknown (hq : (s.station st).queue = [r]) (ha : r.state = .active) (hb : r.bodyHeld = true)
    (he : r.entries = []) (hscope : s.holdScope = .station) (hmirror : s.unmirrored st .release)
    (hopt : option = 1 ∨ option = 2) :
    let outcome := if option = 1 then BodyOutcome.faulted else .aborted
    exec (.clearStation station option) s = .next (State.replied
      { s with
        tracker := { s.tracker with stations := s.tracker.stations.set st { s.station st with
          state := .idle, queue := [], counters := (s.station st).counters.released outcome } }
        tags := (s.disown st).tags
        ports := { s.ports with uplinkOwn := s.ports.uplinkOwn ++ [.release (s.envelopeTo s.reportNode)
          { r with
            station := st, bodyHeld := false, state := .releasing, releasedAt := some s.lineTime
            outcome := some outcome }] } }
      e .done [1]) := by
  intro outcome
  have hcase : (option = 1 ∧ outcome = .faulted) ∨ (option = 2 ∧ outcome = .aborted) := by
    rcases hopt with h1 | h2
    · exact .inl ⟨h1, if_pos h1⟩
    · exact .inr ⟨h2, if_neg (by rw [h2]; decide)⟩
  have k := (clearStation_givesUp h hst held (u := s) (kept := r) hq ha (by simp) (hcase.imp
    (fun ⟨h1, hout⟩ => ⟨h1, hb, he, rfl, rfl, hout⟩)
    (fun ⟨h2, hout⟩ => .inr ⟨h2, by rw [he]; rfl, hq, ha, hout⟩))).1 (.inl (State.sectionHold_of_station_scope hscope))
  rw [State.testStation_released_nil, State.released_of_unmirrored hmirror] at k
  exact k.trans (congrArg Host.Outcome.next (settleNotice_quiet (by rfl) (by rfl)))

end Held

end Sys2Proof.Machine

section

open Sys2Proof Sys2Proof.Machine

/-- Settles O51: the option's acts on the head, then the station settled, then the tests (`clearStation_settlesTo`). -/
theorem clearStationGivesUpOrRetriesTheHead : Obligations.ClearStationGivesUpOrRetriesTheHead := by
  intro s e station option h
  refine ⟨clearStation_badParameter h, fun st hn hc hopt => ?_⟩
  have hst := State.configuredStation?_eq_some.2 ⟨hn, hc⟩
  have ho := clearOptionOf?_eq hopt
  refine ⟨clearStation_wrongState h hst hopt, ?_, fun r x rest h0 held hq ha hb he hx => ⟨fun hl => ?_, fun row y hs hrow hy hf => ?_⟩,
    fun r rest row h0 held hq ha hb he hrow => ?_, fun r rest h0 held hq ha hb he hrow => ?_,
    fun r kept rest h2 held hq ha hk hka hkb => ?_, fun r kept rest u outcome held hq ha hrest hcase => ?_⟩
  · exact fun r held hq ha hb he hscope hmirror h0 => clearStation_releases_unknown h hst held hq ha hb he hscope hmirror
      (by bv_omega)
  · exact clearStation_retry_loaded h hst held h0 hq ha hb he hx hl
  · exact clearStation_retry_reselected h hst held h0 hq ha hb he hx hs hrow hy hf
  · exact clearStation_retry_known h hst held h0 hq ha hb he hrow
  · exact clearStation_retry_unknown h hst held h0 hq ha hb he hrow
  · obtain ⟨o, ho, hclear⟩ := clearHead_entries (by bv_omega) hq ha rfl hk hka hkb
    exact ⟨fun hx => clearStation_releases h hst ho held hclear hk hka hkb hx,
      fun hx => clearStation_stays h hst ho held (.inl hclear) hk hka hkb hx⟩
  · exact clearStation_givesUp h hst held hq ha hrest hcase

end
end

section
/-! The Uplink own-telegram queue: a RELEASE that departs (R20, R48, R191), and the REPLY to a RESTART (R168). -/

namespace Sys2Proof.Machine

open Octets

/-! ## The octets of a RELEASE (R191) -/

theorem octetOfBits_five (a b c d e : Bool) : octetOfBits [a, b, c, d, e] =
    (if a = true then 1 else 0) ||| (if b = true then 2 else 0) ||| (if c = true then 4 else 0) |||
      (if d = true then 8 else 0) ||| (if e = true then 16 else 0) := by
  revert a b c d e
  decide

theorem opt1_outcome (o : Option BodyOutcome) : opt1 (o.map (·.code)) =
    nat1 (match o with | some .clean => 0 | some .faulted => 1 | some .aborted => 2 | none => 255) := by
  cases o with
  | none => rfl
  | some o => cases o <;> rfl

theorem flag1_isSome {α : Type} (o : Option α) [Decidable (o = none)] :
    flag1 o.isSome = [if o = none then 0 else 1] := by
  cases o <;> simp [flag1]

theorem releaseOctets_eq (r : BodyRecord) : releaseOctets r =
    be4 r.bodyId ++ nat1 r.station.val ++ nat1 (match r.origin with | .normal => 0 | .rework => 1) ++
      be2 r.style ++ opt1 r.row ++ be2 r.options ++ nat1 r.variant ++
      nat1 (match r.bankTag with | .a => 0 | .b => 1) ++
      nat1 (match r.outcome with | some .clean => 0 | some .faulted => 1 | some .aborted => 2 | none => 255) ++
      [if r.startedAt = none then 0 else 1] ++
      be4 r.announcedAt ++ be4 (r.startedAt.getD 0) ++ be4 (r.releasedAt.getD 0) ++
      nat1 r.entries.length ++ r.entries.flatMap entryOctets := by
  unfold releaseOctets counted
  rw [opt1_outcome, flag1_isSome, ← List.append_assoc]
  rfl

theorem entryOctets_eq (e : SlotEntry) : entryOctets e =
    nat1 e.position.val ++
      nat1 (match e.state with
        | .waiting => 0 | .selected => 1 | .loaded => 2 | .finished => 3 | .faulted => 4 | .cancelled => 5) ++
      nat2 e.effectivePlan ++ nat1 (e.program.getD 0) ++ nat2 (e.plannedSpots.getD 0) ++ opt2 e.spotsWelded ++
      [e.faults,
        (if e.warned = true then 1 else 0) ||| (if e.clamp = true then 2 else 0) |||
          (if e.dressRequested = true then 4 else 0) ||| (if e.wearUnconfirmed = true then 8 else 0) |||
          (if e.held = true then 16 else 0)] ++
      opt2 e.refusalReason ++
      nat1 (match e.expansionError with | none => 0 | some .depth => 1 | some .length => 2 | some .missing => 3) ++
      be2 (e.tag.getD 0) ++ nat1 e.overlays.length ++ ((e.overlays ++ [0, 0, 0]).take 3).flatMap nat1 := by
  unfold entryOctets marksOctet
  rw [octetOfBits_five]
  rfl

/-! ## A RELEASE departs (R20, R48) -/

theorem State.releaseTransmit_eq {s : State} {v : Envelope} {r : BodyRecord} {rest : List UplinkTelegram}
    (hup : s.ports.uplinkUp = true) (hq : s.ports.uplinkOwn = .release v r :: rest) :
    s.releaseTransmit = (s.takeUplink (.release v r)).drainTest := by
  simp [State.releaseTransmit, State.uplinkFront?, hup, hq]

theorem State.length_recordsInUse_release {s : State} {v : Envelope} {r : BodyRecord} {rest : List UplinkTelegram}
    (hq : s.ports.uplinkOwn = .release v r :: rest) :
    s.recordsInUse.length = (s.takeUplink (.release v r)).recordsInUse.length + 1 := by
  have hqueued : (s.takeUplink (.release v r)).queued = s.queued := rfl
  have hreleasing : s.releasing = r :: (s.takeUplink (.release v r)).releasing := by
    simp [State.releasing, State.takeUplink, hq, UplinkTelegram.releaseRecord?]
  simp only [State.recordsInUse, hqueued, hreleasing, List.length_append, List.length_cons]
  omega

/-! ## The REPLY to a RESTART departs (R168) -/

/-- The entry answered is gone after a RESTART in any case. -/
theorem State.restart_dropAnswered (s : State) : s.dropAnswered.restart = s.restart := by
  unfold State.dropAnswered
  split
  · split <;> rfl
  · rfl

/-- A RESTART leaves no flag set, and so calls for no NOTICE. -/
theorem settleNotice_restart (s t : State) : settleNotice s t.restart = t.restart :=
  settleNotice_of_not_due (noticeDue_eq_false fun i hi => absurd hi (by simp [State.restart, Events.restarted]))

theorem exec_replyTransmit_restart {s : State} {v : Envelope} {number : BitVec 16} {result : ResultCode} {summary : Octet}
    {data : List Octet} {rest : List UplinkTelegram} (hup : s.ports.uplinkUp = true)
    (hq : s.ports.uplinkOwn = .reply v number 0x54 result summary data :: rest) :
    exec .replyTransmit s = .next (s.takeUplink (.reply v number 0x54 result summary data)).restart := by
  have ht : s.replyTransmit = (s.takeUplink (.reply v number 0x54 result summary data)).restart := by
    rw [← State.restart_dropAnswered]
    simp [State.replyTransmit, State.uplinkFront?, hup, hq, restartCode]
  rw [exec_eq, ← settleNotice_restart s, ← ht]
  rfl

theorem State.tagState_restart (s : State) (g : SlotId) : s.restart.tagState g = (s.tagState g).restarted := by
  simp [State.restart, State.tagState, mapVector]

theorem State.channels_restart (s : State) (c : ChannelId) : s.restart.channels[c] = s.channels[c].restarted := by
  simp [State.restart, mapVector]

end Sys2Proof.Machine

section

open Sys2Proof Sys2Proof.Machine

/-- Settles O31: the layout, and a RELEASE taken by the transmitter, with the drain's end (`State.drainTest`). -/
theorem releaseTransmitFreesTheRecord : Obligations.ReleaseTransmitFreesTheRecord := by
  refine ⟨releaseOctets_eq, entryOctets_eq, fun s v r rest hup hq => ?_⟩
  intro u
  have hu : s.takeUplink (.release v r) = u := by
    simp only [State.takeUplink, hq]
    rfl
  refine ⟨hu ▸ State.length_recordsInUse_release hq, ?_⟩
  rw [exec_eq]
  show Host.Outcome.next (settleNotice s s.releaseTransmit) = _
  rw [State.releaseTransmit_eq hup hq, hu]
  unfold State.drainTest
  split
  · rfl
  · exact congrArg _ (settleNotice_quiet rfl rfl)

/-- Settles O33: what `State.restart` writes, block by block, in the state in which the REPLY has been taken. -/
theorem restartDiscardsWorkAndKeepsSettings : Obligations.RestartDiscardsWorkAndKeepsSettings := by
  intro s v number result summary data rest hup hq
  refine ⟨_, exec_replyTransmit_restart hup hq, (State.cleared_restart _).recordsInUse, rfl, rfl, rfl, rfl,
    State.station_restart _, rfl, rfl, rfl, rfl, rfl, rfl, rfl, State.tagState_restart _, rfl, rfl, rfl, rfl, rfl, rfl,
    State.channels_restart _, rfl⟩

end
end

section
/-! A matching DONE (R111 to R113, R128): what it leaves, the records it offers, and the release that follows (R16). -/

namespace Sys2Proof.Machine

/-! ## The kinds a DONE reveals and the mode that governs (R112, R128) -/

/-- Some of the kinds have a mode. -/
def State.anyUnder (s : State) (st : StationId) (kinds : List FaultKind) (m : FaultMode) : Bool :=
  kinds.any fun k => s.mode st k == m

theorem State.mem_doneFaults_iff (s : State) (g : SlotId) (e : SlotEntry) (spots : Nat) (reject : Bool) (k : FaultKind) :
    k ∈ s.doneFaults g e spots reject ↔ s.mode (stationOf g) k ≠ .off ∧
      ((k = .shortCycle ∧ ((s.effectivePlan? g).map (·.cycleMin)).getD 0 ≠ 0 ∧
          cycleTime e s.lineTime < ((s.effectivePlan? g).map (·.cycleMin)).getD 0) ∨
        (k = .spotShortfall ∧ spots < e.plannedSpots.getD 0) ∨ (k = .qualityReject ∧ reject = true)) := by
  have single : ∀ (b : Bool) (x : FaultKind), (k ∈ if (b && s.mode (stationOf g) x != .off) = true then [x] else []) ↔
      s.mode (stationOf g) k ≠ .off ∧ k = x ∧ b = true := by
    intro b x
    cases b
    · simp
    · by_cases hm : s.mode (stationOf g) x = .off
      · simp only [hm, Bool.true_and, bne_self_eq_false, Bool.false_eq_true, if_false, List.not_mem_nil, false_iff]
        rintro ⟨hk, rfl, -⟩
        exact hk hm
      · have : (s.mode (stationOf g) x != .off) = true := by simpa using hm
        simp only [this, Bool.true_and, if_true, List.mem_singleton, and_true]
        exact ⟨by rintro rfl; exact ⟨hm, rfl⟩, And.right⟩
  simp only [State.doneFaults, List.mem_append, single]
  simp only [Bool.and_eq_true, bne_iff_ne, decide_eq_true_eq]
  tauto

/-- The governing mode is the strongest that some kind has, where none has the mode OFF. -/
theorem governing_modes (s : State) (st : StationId) {kinds : List FaultKind} (h : ∀ k ∈ kinds, s.mode st k ≠ .off) :
    governing (kinds.map (s.mode st)) =
      if s.anyUnder st kinds .hold = true then some .hold else if s.anyUnder st kinds .pass = true then some .pass
      else if s.anyUnder st kinds .warn = true then some .warn else none := by
  have hc : ∀ m, (kinds.map (s.mode st)).contains m = s.anyUnder st kinds m := by
    intro m
    rw [Bool.eq_iff_iff, List.contains_iff_mem, List.mem_map, State.anyUnder, List.any_eq_true]
    simp only [beq_iff_eq]
  simp only [governing, hc]
  cases hh : s.anyUnder st kinds .hold with
  | true => rfl
  | false =>
    cases hp : s.anyUnder st kinds .pass with
    | true => rfl
    | false =>
      cases kinds with
      | nil => rfl
      | cons k rest =>
        have hw : s.anyUnder st (k :: rest) .warn = true := by
          simp only [State.anyUnder, List.any_eq_false, List.any_eq_true, beq_iff_eq] at hh hp ⊢
          refine ⟨k, List.mem_cons_self, ?_⟩
          cases hm : s.mode st k with
          | off => exact absurd hm (h k List.mem_cons_self)
          | hold => exact absurd hm (hh k List.mem_cons_self)
          | pass => exact absurd hm (hp k List.mem_cons_self)
          | warn => rfl
        simp [hw]

/-! ## What a DONE leaves at its entry and its station (R113, R125, R128) -/

/-- The head's entry at a slot as a DONE leaves it, where some of the kinds it reveals are under HOLD, PASS and WARN. -/
def SlotEntry.doneUnder (e : SlotEntry) (spots : Nat) (kinds : List FaultKind) (hold pass warn : Bool) : SlotEntry :=
  { e with
    spotsWelded := some spots
    faults := kinds.foldl (fun f k => f ||| (1#8 <<< k.number.val)) e.faults
    state := if hold = false ∧ pass = true then .faulted else .finished
    held := e.held || hold
    warned := e.warned || (!hold && !pass && warn) }

/-- A matching DONE before its records are offered and before the gun's wear is updated. -/
def State.doneEnded (s : State) (g : SlotId) (spots : Nat) (kinds : List FaultKind) (hold pass warn : Bool) : State :=
  { s with
    tags := s.tags.set g { s.tagState g with readyTimer := none, cycleTimer := none }
    tracker := { s.tracker with stations := s.tracker.stations.set (stationOf g) {
      ((s.station (stationOf g)).modifyHead fun r =>
        r.modifyEntry (positionOf g) fun e => e.doneUnder spots kinds hold pass warn) with
      state := if hold = true ∧ (s.station (stationOf g)).state = .dispatching then .held
        else (s.station (stationOf g)).state } }
    events := { s.events with
      flags := s.events.flags ||| (
        if hold = true then 1#29 <<< (stationOf g).val
        else if pass = false ∧ warn = true then 1#29 <<< (4 + (stationOf g).val)
        else 0) } }

/-- The entry under the governing mode. -/
theorem SlotEntry.afterDone_eq (e : SlotEntry) (spots : Nat) (kinds : List FaultKind) (hold pass warn : Bool) :
    e.afterDone spots kinds
      (if hold = true then some .hold else if pass = true then some .pass else if warn = true then some .warn else none) =
      e.doneUnder spots kinds hold pass warn := by
  have hf : addFault = fun f k => f ||| (1#8 <<< k.number.val) := rfl
  unfold SlotEntry.afterDone SlotEntry.doneUnder
  rw [hf]
  cases hold <;> cases pass <;> cases warn <;> rfl

/-- A DONE's timers stopped, its entry ended, and the flag and the station state of the governing mode. -/
def State.doneMarked (s : State) (g : SlotId) (spots : Nat) (kinds : List FaultKind) (mode : Option FaultMode) : State :=
  let ended := (s.setTag g (s.tagState g).stopTimers).modifyEntry g fun e => e.afterDone spots kinds mode
  match mode with
  | some .hold => (ended.setFlag (.stationHeld (stationOf g))).enterHeld (stationOf g)
  | some .warn => ended.setFlag (.stationWarning (stationOf g))
  | some .pass | some .off | none => ended

theorem State.doneMarked_eq (s : State) (g : SlotId) (spots : Nat) (kinds : List FaultKind) (hold pass warn : Bool) :
    s.doneMarked g spots kinds
      (if hold = true then some .hold else if pass = true then some .pass else if warn = true then some .warn else none) =
      s.doneEnded g spots kinds hold pass warn := by
  unfold State.doneMarked
  simp only [SlotEntry.afterDone_eq]
  set f : BodyRecord → BodyRecord := fun r =>
    r.modifyEntry (positionOf g) fun e => e.doneUnder spots kinds hold pass warn with hf
  have hstate : ((s.station (stationOf g)).modifyHead f).state = (s.station (stationOf g)).state := by simp
  have hsame : { (s.station (stationOf g)).modifyHead f with state := (s.station (stationOf g)).state } =
      (s.station (stationOf g)).modifyHead f := by rw [← hstate]
  cases hold with
  | false =>
    have kept : (s.setTag g (s.tagState g).stopTimers).modifyEntry g (fun e => e.doneUnder spots kinds false pass warn) =
        { s.doneEnded g spots kinds false pass warn with events := s.events } := by
      apply State.ext_fields <;> try rfl
      simp only [State.doneEnded, Bool.false_eq_true, false_and, if_false, ← hf, hsame]
      rfl
    cases pass with
    | true =>
      refine kept.trans (State.ext_fields rfl rfl rfl rfl rfl rfl rfl rfl rfl rfl rfl rfl ?_ rfl rfl rfl)
      simp [State.doneEnded]
    | false =>
      cases warn with
      | true => exact congrArg (State.setFlag · (.stationWarning (stationOf g))) kept
      | false =>
        refine kept.trans (State.ext_fields rfl rfl rfl rfl rfl rfl rfl rfl rfl rfl rfl rfl ?_ rfl rfl rfl)
        simp [State.doneEnded]
  | true =>
    simp only [if_true, State.enterHeld]
    split
    · next hd =>
      have hd' : (s.station (stationOf g)).state = .dispatching := by
        simpa [State.station, State.modifyEntry, State.modifyHead] using hd
      apply State.ext_fields <;> try rfl
      simp only [State.doneEnded, if_pos hd', true_and]
      simp [State.setStationState, State.modifyEntry, State.modifyHead, State.setStation, State.setTracker,
        State.station]
    · next hd =>
      have hd' : (s.station (stationOf g)).state ≠ .dispatching := by
        intro hx
        apply hd
        simpa [State.station, State.modifyEntry, State.modifyHead] using hx
      apply State.ext_fields <;> try rfl
      simp only [State.doneEnded, true_and, if_neg hd', ← hf, hsame]
      rfl

/-! ## The wear of the gun and the records offered (R89, R113, R178) -/

theorem Gun.completion_eq (x : Gun) (dry : Bool) (spots dressed : Octet) :
    x.completion dry spots.toNat (dressed == 1) =
      if dressed = 1 then
        { x with wear := 0, dressDue := false, wearUnknown := false, dressCount := bump x.dressCount }
      else if dry then x
      else { x with wear := min (x.wear + spots.toNat) 65535 } := by
  have ha : addSpots x.wear spots.toNat = min (x.wear + spots.toNat) 65535 := by
    unfold addSpots
    split <;> omega
  unfold Gun.completion
  rw [ha]
  by_cases hd : dressed = 1 <;> cases dry <;> simp [hd]

/-- The SLOT FAULT records of some kinds offered, in their order. -/
def State.faultsOffered (s : State) (g : SlotId) (kinds : List FaultKind) : State :=
  kinds.foldl (fun u k => u.faultOffered g k) s

@[simp] theorem State.faultsOffered_tracker (s : State) (g : SlotId) (kinds : List FaultKind) :
    (s.faultsOffered g kinds).tracker = s.tracker := State.foldl_mirrorFault_tracker g kinds s

@[simp] theorem State.faultsOffered_guns (s : State) (g : SlotId) (kinds : List FaultKind) :
    (s.faultsOffered g kinds).guns = s.guns := by
  induction kinds generalizing s with
  | nil => rfl
  | cons k rest ih => exact (ih _).trans (State.faultOffered_guns s g k)

theorem State.faultsOffered_withGuns (s : State) (v : Vector Gun 32) (g : SlotId) (kinds : List FaultKind) :
    State.faultsOffered { s with guns := v } g kinds = { s.faultsOffered g kinds with guns := v } := by
  induction kinds generalizing s with
  | nil => rfl
  | cons k rest ih =>
    have step : ∀ u : State, u.faultsOffered g (k :: rest) = (u.faultOffered g k).faultsOffered g rest := fun _ => rfl
    rw [step, step, State.faultOffered_withGuns, ih]

/-- The state a matching DONE leaves before the release test (R111 to R113). -/
def State.doneRecorded (s : State) (g : SlotId) (spots dressed : Octet) (kinds : List FaultKind) : State :=
  let under := s.anyUnder (stationOf g) kinds
  ({ s.doneEnded g spots.toNat kinds (under .hold) (under .pass) (under .warn) with
    guns := s.guns.set g ((s.gun g).completion (s.station (stationOf g)).dry spots.toNat (dressed == 1)) }.doneOffered
      g).faultsOffered g kinds

theorem State.doneRecorded_tracker (s : State) (g : SlotId) (spots dressed : Octet) (kinds : List FaultKind) :
    (s.doneRecorded g spots dressed kinds).tracker =
      (s.doneEnded g spots.toNat kinds (s.anyUnder (stationOf g) kinds .hold) (s.anyUnder (stationOf g) kinds .pass)
        (s.anyUnder (stationOf g) kinds .warn)).tracker := by
  simp only [State.doneRecorded, State.faultsOffered_tracker, State.doneOffered_tracker]

/-- What a DONE leaves once its records are offered, with its own mode. -/
def State.doneOfferedUnder (s : State) (g : SlotId) (spots : Nat) (kinds : List FaultKind) (mode : Option FaultMode) :
    State :=
  ((s.doneMarked g spots kinds mode).doneOffered g).faultsOffered g kinds

theorem State.acceptDone_eq_setGun (s : State) (g : SlotId) (e : SlotEntry) (spots : Nat) (reject dressed : Bool) :
    s.acceptDone g e spots reject dressed =
      let kinds := s.doneFaults g e spots reject
      let u := s.doneOfferedUnder g spots kinds (governing (kinds.map (s.mode (stationOf g))))
      (u.setGun g ((u.gun g).completion (u.station (stationOf g)).dry spots dressed)).testRelease (stationOf g) := rfl

/-- The gun's wear is updated from the gun and the station as they were before the DONE. -/
theorem State.setGun_doneOfferedUnder (s : State) (g : SlotId) (spots dressed : Octet) {kinds : List FaultKind}
    (hoff : ∀ k ∈ kinds, s.mode (stationOf g) k ≠ .off) :
    let u := s.doneOfferedUnder g spots.toNat kinds (governing (kinds.map (s.mode (stationOf g))))
    u.setGun g ((u.gun g).completion (u.station (stationOf g)).dry spots.toNat (dressed == 1)) =
      s.doneRecorded g spots dressed kinds := by
  simp only
  rw [governing_modes s _ hoff, State.doneOfferedUnder, State.doneMarked_eq, State.doneRecorded]
  simp only
  generalize hu : s.doneEnded g spots.toNat kinds (s.anyUnder (stationOf g) kinds .hold)
    (s.anyUnder (stationOf g) kinds .pass) (s.anyUnder (stationOf g) kinds .warn) = u
  have hguns : ((u.doneOffered g).faultsOffered g kinds).guns = s.guns := by
    rw [State.faultsOffered_guns, State.doneOffered_guns, ← hu]
    rfl
  have hgun : ((u.doneOffered g).faultsOffered g kinds).gun g = s.gun g := by rw [State.gun, hguns]; rfl
  have hdry : (((u.doneOffered g).faultsOffered g kinds).station (stationOf g)).dry = (s.station (stationOf g)).dry := by
    rw [State.station, State.faultsOffered_tracker, State.doneOffered_tracker, ← hu]
    simp [State.doneEnded, State.station]
  have hw : ∀ v, State.faultsOffered (State.doneOffered { u with guns := v } g) g kinds =
      { (u.doneOffered g).faultsOffered g kinds with guns := v } := fun v => by
    rw [State.doneOffered_withGuns, State.faultsOffered_withGuns]
  rw [hgun, hdry, State.setGun, hguns]
  exact (hw _).symm

theorem State.acceptDone_eq (s : State) (g : SlotId) (e : SlotEntry) (spots dressed : Octet) (reject : Bool) :
    s.acceptDone g e spots.toNat reject (dressed == 1) =
      (s.doneRecorded g spots dressed (s.doneFaults g e spots.toNat reject)).testRelease (stationOf g) := by
  rw [State.acceptDone_eq_setGun]
  simp only
  rw [State.setGun_doneOfferedUnder s g spots dressed fun k hk => ((s.mem_doneFaults_iff g e _ _ k).1 hk).1]

/-! ## The release that follows (R16) -/

/-- The head at a slot's station after a DONE, before its release is tested. -/
theorem State.head?_doneRecorded {s : State} {g : SlotId} {r : BodyRecord} (h : s.head? (stationOf g) = some r)
    (spots dressed : Octet) (kinds : List FaultKind) :
    (s.doneRecorded g spots dressed kinds).head? (stationOf g) = some (r.modifyEntry (positionOf g) fun e =>
      e.doneUnder spots.toNat kinds (s.anyUnder (stationOf g) kinds .hold) (s.anyUnder (stationOf g) kinds .pass)
        (s.anyUnder (stationOf g) kinds .warn)) := by
  refine State.head?_of_station_modifyHead (s := s) (f := fun r => r.modifyEntry (positionOf g) fun e =>
      e.doneUnder spots.toNat kinds (s.anyUnder (stationOf g) kinds .hold) (s.anyUnder (stationOf g) kinds .pass)
        (s.anyUnder (stationOf g) kinds .warn)) ?_ h fun _ => rfl
  rw [State.station, State.doneRecorded_tracker]
  simp [State.doneEnded, State.station]

/-- A head whose entry the DONE holds, or of which another entry works, is not released. -/
theorem State.testRelease_doneRecorded {s : State} {g : SlotId} {e : SlotEntry} (he : s.entry? g = some e)
    (spots dressed : Octet) {kinds : List FaultKind}
    (h : s.anyUnder (stationOf g) kinds .hold = true ∨ s.othersWork g) :
    (s.doneRecorded g spots dressed kinds).testRelease (stationOf g) = s.doneRecorded g spots dressed kinds := by
  obtain ⟨r, hr, hre⟩ := State.head?_of_entry? he
  have hh := State.head?_doneRecorded hr spots dressed kinds
  rcases h with hhold | ⟨r', hr', x, hx, hxp, hxe⟩
  · refine State.testRelease_of_held hh ?_
    simp only [BodyRecord.anyHeld, Bool.or_eq_true, List.any_eq_true]
    exact Or.inr ⟨_, BodyRecord.mem_modifyEntry hre _, by simp [SlotEntry.doneUnder, hhold]⟩
  · rw [hr] at hr'
    cases hr'
    exact State.testRelease_of_work hh (BodyRecord.other_mem_modifyEntry hx hxp _) hxe

/-! ## The telegram (R105, R106) -/

theorem SlotEntry.outstanding_of {e : SlotEntry} (h : e.state = .selected ∨ e.state = .loaded) : e.outstanding = true := by
  rcases h with h | h <;> simp [SlotEntry.outstanding, h]

theorem exec_done_of_answersFor {s : State} {source : Node} {tag : Tag} {g : SlotId} {e : SlotEntry}
    (h : s.answersFor source tag g e) (he : e.state = .selected ∨ e.state = .loaded) (spots : Octet) {quality dressed : Octet}
    (hq : quality = 1 ∨ quality = 2) (hd : dressed.toNat ≤ 1) :
    exec (.done source tag spots quality dressed) s = .next (settleNotice s
      ((s.doneRecorded g spots dressed (s.doneFaults g e spots.toNat (quality == 2))).testRelease (stationOf g))) := by
  obtain ⟨hup, h0, hb, hown, hslot, htag, hcur, howner, hsel⟩ := h
  have hbad : s.badSource source = false := by
    simpa [State.badSource, validNode] using ⟨⟨h0, hb⟩, hown⟩
  have hacc : s.accepts .done .cell source = true := by simp [State.accepts, hslot]
  have hclass : s.classify g tag false = .matching e := by
    simp only [State.classify, if_neg htag, ← hcur, howner, SlotEntry.outstanding_of he, hsel, if_true, Bool.false_and,
      Bool.false_eq_true, if_false]
  rw [exec_eq, ← State.acceptDone_eq]
  simp only [effect, State.fromSource, State.linkUp, hup, if_true, hbad, hacc, Bool.not_true, Bool.or_self,
    Bool.false_eq_true, if_false, State.forRobot, hslot, State.takeDone, hclass]
  rw [if_neg]
  rintro (⟨h1, h2⟩ | h1)
  · exact hq.elim h1 h2
  · omega

end Sys2Proof.Machine
end

section
open Sys2Proof Sys2Proof.Machine

namespace Sys2Proof.Machine

/-- A DONE that reveals no fault and is mirrored nowhere ends its entry, stops the timers and wears the gun. -/
theorem State.doneRecorded_nil {s : State} {g : SlotId} (spots dressed : Octet)
    (h : s.unmirrored (stationOf g) .slotDone) :
    s.doneRecorded g spots dressed [] =
      { s with
        tags := s.tags.set g { s.tagState g with readyTimer := none, cycleTimer := none }
        tracker :=
          { s.tracker with
            stations := s.tracker.stations.set (stationOf g) ((s.station (stationOf g)).modifyHead fun r =>
              r.modifyEntry (positionOf g) fun e => { e with spotsWelded := some spots.toNat, state := .finished }) }
        guns := s.guns.set g ((s.gun g).completion (s.station (stationOf g)).dry spots.toNat (dressed == 1)) } := by
  have hended : s.doneEnded g spots.toNat [] false false false =
      { s with
        tags := s.tags.set g { s.tagState g with readyTimer := none, cycleTimer := none }
        tracker :=
          { s.tracker with
            stations := s.tracker.stations.set (stationOf g) ((s.station (stationOf g)).modifyHead fun r =>
              r.modifyEntry (positionOf g) fun e => { e with spotsWelded := some spots.toNat, state := .finished }) } } := by
    have he : ∀ e : SlotEntry, e.doneUnder spots.toNat [] false false false =
        { e with spotsWelded := some spots.toNat, state := .finished } := fun e => by simp [SlotEntry.doneUnder]
    refine State.ext_fields rfl rfl rfl rfl rfl ?_ rfl rfl rfl rfl rfl rfl ?_ rfl rfl rfl
    · simp only [State.doneEnded, he, Bool.false_eq_true, false_and, if_false]
      have hstate : ((s.station (stationOf g)).modifyHead fun r => r.modifyEntry (positionOf g) fun e =>
          { e with spotsWelded := some spots.toNat, state := .finished }).state = (s.station (stationOf g)).state := by simp
      rw [← hstate]
    · simp [State.doneEnded]
  have hnone : ∀ m, s.anyUnder (stationOf g) [] m = false := fun _ => rfl
  simp only [State.doneRecorded, hnone, hended]
  exact State.mirrorDone_of_unmirrored h

end Sys2Proof.Machine

/-- Settles O28: `State.doneRecorded` is what the DONE leaves, and the release test keeps it while the head has work. -/
theorem doneFinishesTheEntryAndWearsTheGun : Obligations.DoneFinishesTheEntryAndWearsTheGun := by
  intro s source tag spots quality dressed g e hans he hq hd st x gun worn kinds cycle cycleMin under ended recorded
  have hexec := exec_done_of_answersFor hans he spots hq hd
  have hrec : s.doneRecorded g spots dressed kinds = recorded := by
    unfold State.doneRecorded
    simp only
    rw [Gun.completion_eq]
    rfl
  obtain ⟨-, -, -, -, -, -, -, howner, -⟩ := hans
  have hentry := State.entry?_of_tagOwner? howner
  have hkept : under .hold = true ∨ s.othersWork g →
      exec (.done source tag spots quality dressed) s = .next (settleNotice s recorded) := fun h => by
    rw [hexec, State.testRelease_doneRecorded hentry spots dressed h, hrec]
  refine ⟨fun hq1 hkinds hwork hmirror => ?_, fun k => ?_, hkept, State.finishesTo_of (by rw [hexec, hrec])⟩
  · rw [← hq1, hkept (.inr hwork), ← hrec, hkinds, State.doneRecorded_nil spots dressed hmirror, Gun.completion_eq]
    exact congrArg _ (settleNotice_quiet rfl rfl)
  · rw [State.mem_doneFaults_iff, beq_iff_eq]
    rfl

end

section
/-! Every request is answered by one REPLY (R156 to R158), and which octets spell which request (R192). -/

namespace Sys2Proof.Machine

variable {s t : State}

/-! ## The telegrams placed before the REPLY (R156) -/

/-- A state with further telegrams at the back of the Uplink own-telegram queue, none of them a REPLY or a NOTICE. -/
def State.OwnGrows (s t : State) : Prop :=
  ∃ u, t.ports.uplinkOwn = s.ports.uplinkOwn ++ u ∧ ∀ x ∈ u, x.isReply = false ∧ x.isNotice = false

namespace OwnGrows

theorem of_eq (h : t.ports.uplinkOwn = s.ports.uplinkOwn) : s.OwnGrows t := ⟨[], by simpa using h, by simp⟩

theorem refl (s : State) : s.OwnGrows s := of_eq rfl

theorem of_dispatched (h : Dispatched s t) : s.OwnGrows t := by
  obtain ⟨c, u, hp, hu⟩ := h.ports
  exact ⟨u, by rw [hp], hu⟩

/-- The same, from a state with the same queue. -/
theorem of_dispatched_of_eq {u : State} (h : Dispatched u t) (hu : u.ports.uplinkOwn = s.ports.uplinkOwn) :
    s.OwnGrows t := by
  obtain ⟨v, hv, hn⟩ := of_dispatched h
  exact ⟨v, by rw [hv, hu], hn⟩

theorem readBody (s : State) (station position : Octet) : s.OwnGrows (s.answerReadBody station position).state := by
  unfold State.answerReadBody
  split
  · exact refl s
  · split
    · exact refl s
    · split <;> exact refl s

theorem readTable (s : State) (bank table : Octet) (first count : BitVec 16) :
    s.OwnGrows (s.answerReadTable bank table first count).state := by
  unfold State.answerReadTable
  split
  · split <;> exact refl s
  · exact refl s

theorem readGun (s : State) (first count : Octet) : s.OwnGrows (s.answerReadGun first count).state := by
  unfold State.answerReadGun
  split <;> exact refl s

theorem readCounters (s : State) (clear : Octet) : s.OwnGrows (s.answerReadCounters clear).state := by
  unfold State.answerReadCounters
  split
  · exact refl s
  · split <;> exact of_eq rfl

theorem writeTable (s : State) (bank table : Octet) (first count : BitVec 16) (records : List Octet) :
    s.OwnGrows (s.answerWriteTable bank table first count records).state := by
  unfold State.answerWriteTable
  split
  · split
    · split
      · unfold State.writeRun
        split
        · exact refl s
        · split <;> exact of_eq rfl
      · exact refl s
    · exact refl s
  · exact refl s

theorem writeBlock (s : State) (bank r1 r2 c1 c2 form : Octet) (cells : List Octet) :
    s.OwnGrows (s.answerWriteBlock bank r1 r2 c1 c2 form cells).state := by
  unfold State.answerWriteBlock
  simp only
  split
  · split
    · unfold State.writeBlock
      split
      · exact refl s
      · split <;> exact of_eq rfl
    · exact refl s
  · exact refl s

theorem clearBank (s : State) (bank : Octet) : s.OwnGrows (s.answerClearBank bank).state := by
  unfold State.answerClearBank
  split
  · exact refl s
  · split <;> exact of_eq rfl

theorem copyBank (s : State) : s.OwnGrows s.answerCopyBank.state := by
  unfold State.answerCopyBank
  split <;> exact of_eq rfl

theorem swap (s : State) : s.OwnGrows s.answerSwap.state := by
  unfold State.answerSwap
  split
  · exact refl s
  · split <;> exact of_eq rfl

theorem loadImage (s : State) : s.OwnGrows s.answerLoadImage.state := by
  unfold State.answerLoadImage
  split <;> exact of_eq rfl

theorem storeImage (s : State) : s.OwnGrows s.answerStoreImage.state := by
  unfold State.answerStoreImage
  split <;> exact of_eq rfl

theorem setStationMode (s : State) (st : StationId) (mode : StationState) (dry : Bool) (limit : Nat) :
    s.OwnGrows (s.setStationMode st mode dry limit) := by
  unfold State.setStationMode State.testIfIdled
  split
  · exact of_dispatched_of_eq (.testStation ..) rfl
  · exact of_eq rfl

theorem setStation (s : State) (station mode dry : Octet) (limit : BitVec 16) :
    s.OwnGrows (s.answerSetStation station mode dry limit).state := by
  unfold State.answerSetStation
  split
  · split
    · exact refl s
    · simp only
      split <;> exact setStationMode ..
  · exact refl s

theorem setFaultModes (s : State) (station : Octet) (pairs : List (Octet × Octet)) :
    s.OwnGrows (s.answerSetFaultModes station pairs).state := by
  unfold State.answerSetFaultModes
  split
  · split <;> exact of_eq rfl
  · exact refl s

theorem setHoldScope (s : State) (scope : Octet) : s.OwnGrows (s.answerSetHoldScope scope).state := by
  unfold State.answerSetHoldScope
  split
  · exact refl s
  · next scope _ =>
    have d : Dispatched (s.setScope scope) (Machine.testAfterHold s (s.setScope scope) (s.setScope scope)) :=
      .testAfterHold (.refl _)
    exact of_dispatched_of_eq d rfl

theorem clearStation (s : State) (station option : Octet) : s.OwnGrows (s.answerClearStation station option).state := by
  unfold State.answerClearStation
  split
  · split
    · exact of_dispatched (.clearStation ..)
    · exact refl s
  · exact refl s

theorem withdrawBody (s : State) (bodyId : BodyId) (station : Octet) :
    s.OwnGrows (s.answerWithdrawBody bodyId station).state := by
  show s.OwnGrows (s.withdrawBody bodyId station).1
  unfold State.withdrawBody
  split
  · exact of_eq rfl
  · split
    · exact of_eq rfl
    · simp only
      split
      · exact of_dispatched (.withdrawHead ..)
      · exact of_dispatched (.withdrawQueued ..)

theorem onGun (s : State) (slot : Octet) {op : SlotId → Answer} (h : ∀ g, s.OwnGrows (op g).state) :
    s.OwnGrows (s.onGun slot op).state := by
  unfold State.onGun
  split
  · exact refl s
  · split
    · exact refl s
    · exact h _

theorem setGun (s : State) (slot : Octet) (dress hard ceiling : BitVec 16) :
    s.OwnGrows (s.answerSetGun slot dress hard ceiling).state := by
  refine onGun s slot fun g => ?_
  simp only
  split <;> exact of_eq rfl

theorem clearEvents (s : State) (mask : BitVec 32) : s.OwnGrows (s.answerClearEvents mask).state := by
  unfold State.answerClearEvents
  split <;> exact of_eq rfl

theorem setEventEnable (s : State) (enables : BitVec 32) : s.OwnGrows (s.answerSetEventEnable enables).state := by
  unfold State.answerSetEventEnable
  split <;> exact of_eq rfl

theorem setMirror (s : State) (channel option trigger mask : Octet) (destination : Node) (form count : Octet) :
    s.OwnGrows (s.answerSetMirror channel option trigger mask destination form count).state := by
  unfold State.answerSetMirror
  split
  · exact of_eq rfl
  · split
    · simp only
      split <;> exact of_eq rfl
    · exact refl s
  · exact refl s

theorem configure (s : State) (x : Shape) : s.OwnGrows (s.answerConfigure x).state := by
  unfold State.answerConfigure
  split
  · exact refl s
  · exact of_eq (Aside.applyShape s x).uplinkOwn

theorem goLive (s : State) : s.OwnGrows s.answerGoLive.state := by
  unfold State.answerGoLive
  split
  · exact refl s
  · split <;> exact of_eq rfl

theorem answer (s : State) (i : Instr) : s.OwnGrows (s.answer i).state := by
  cases i with
  | readStatus => exact refl s
  | readBody station position => exact readBody ..
  | readTable bank table first count => exact readTable ..
  | readGun first count => exact readGun ..
  | readCounters clear => exact readCounters ..
  | readRefusals => exact refl s
  | writeTable bank table first count records => exact writeTable ..
  | writeBlock bank r1 r2 c1 c2 form cells => exact writeBlock ..
  | clearBank bank => exact clearBank ..
  | copyBank => exact copyBank s
  | swap => exact swap s
  | setStation station mode dry limit => exact setStation ..
  | setFaultModes station pairs => exact setFaultModes ..
  | setHoldScope scope => exact setHoldScope ..
  | clearStation station option => exact clearStation ..
  | withdrawBody bodyId station => exact withdrawBody ..
  | setGun slot dress hard ceiling => exact setGun ..
  | setWear slot wear => exact onGun s slot fun _ => of_eq rfl
  | resetWear slot => exact onGun s slot fun _ => of_eq rfl
  | clearEvents mask => exact clearEvents ..
  | setEventEnable enables => exact setEventEnable ..
  | setMirror channel option trigger mask destination form count => exact setMirror ..
  | configure protocolType own controller tracker stationCount slotCounts robotNodes => exact configure ..
  | goLive => exact goLive s
  | storeImage => exact storeImage s
  | loadImage => exact loadImage s
  | _ => exact refl s

end OwnGrows

/-! ## One REPLY for the front waiting request (R156, R157) -/

/-- What a state answers to: the front request answered, its REPLY behind further telegrams that are no REPLY and no NOTICE, and
a NOTICE at most behind it. -/
theorem exec_request_answered {e : RequestEntry} (h : s.executes (decodeRequest e.code e.params) e) :
    ∃ (t : State) (between notice : List UplinkTelegram) (result : ResultCode) (summary : Octet) (data : List Octet),
      exec (decodeRequest e.code e.params) s = .next t ∧
      t.agent.requests = answerFront s.agent.requests ∧
      t.ports.uplinkOwn = s.ports.uplinkOwn ++ between ++
        [.reply ⟨e.source, t.filter.ownNode, t.filter.protocolType⟩ e.number e.code result summary data] ++ notice ∧
      (∀ x ∈ between, x.isReply = false ∧ x.isNotice = false) ∧ (notice = [] ∨ notice = [.notice]) := by
  obtain ⟨between, hown, hbetween⟩ := OwnGrows.answer s (decodeRequest e.code e.params)
  have hreq := (Answered.answer s (decodeRequest e.code e.params)).requests
  have hexec : exec (decodeRequest e.code e.params) s = .next (settleNotice s
      ((s.answer (decodeRequest e.code e.params)).state.replied e (s.answer (decodeRequest e.code e.params)).result
        (s.answer (decodeRequest e.code e.params)).data)) := by
    rw [exec_eq, effect_request (isRequest_decodeRequest e.code e.params), runRequest_of_executes h]
  generalize s.answer (decodeRequest e.code e.params) = a at hown hreq hexec
  have hqueue : (a.state.replied e a.result a.data).ports.uplinkOwn = s.ports.uplinkOwn ++ between ++
      [.reply ⟨e.source, a.state.filter.ownNode, a.state.filter.protocolType⟩ e.number e.code a.result a.state.summary
        a.data] := by
    show a.state.ports.uplinkOwn ++ _ = _
    rw [hown]
  have hanswered : (a.state.replied e a.result a.data).agent.requests = answerFront s.agent.requests :=
    congrArg answerFront hreq
  rcases settleNotice_cases s (a.state.replied e a.result a.data) with hn | ⟨-, hn⟩
  · rw [hn] at hexec
    exact ⟨_, between, [], a.result, a.state.summary, a.data, hexec, hanswered, by simpa using hqueue, hbetween, .inl rfl⟩
  · rw [hn] at hexec
    refine ⟨_, between, [.notice], a.result, a.state.summary, a.data, hexec, hanswered, ?_, hbetween, .inr rfl⟩
    exact congrArg (· ++ [UplinkTelegram.notice]) hqueue

theorem exec_request_no_occasion (code : Octet) (params : List Octet)
    (h : s.loader.activity = .powerUpLoad ∨ s.restartAwaits = true ∨ s.frontWaiting? = none) :
    exec (decodeRequest code params) s = .next s := by
  have hno : ∀ e, ¬s.executes (decodeRequest code params) e := by
    rintro e ⟨hfront, hload, hawaits, -⟩
    rcases h with h | h | h
    · exact hload h
    · rw [hawaits] at h
      cases h
    · rw [hfront] at h
      cases h
  rw [exec_eq, effect_request (isRequest_decodeRequest code params), runRequest_of_not_executes hno,
    settleNotice_quiet rfl rfl]

end Sys2Proof.Machine
end

section
/-! Which code and parameter octets spell which request (R192). -/

namespace Sys2Proof

open Octets

/-! ## Parameters that are missing -/

variable {α : Type} {os : List Octet} {n : Nat}

theorem read1_bind_of_short {f : Octet × List Octet → Option α} (h : os.length < n + 1)
    (hf : ∀ a rest, rest.length < n → f (a, rest) = none) : (read1 os).bind f = none := by
  match os with
  | [] => rfl
  | a :: rest => exact hf a rest (by simpa using h)

theorem read2_bind_of_short {f : BitVec 16 × List Octet → Option α} (h : os.length < n + 2)
    (hf : ∀ v rest, rest.length < n → f (v, rest) = none) : (read2 os).bind f = none := by
  match os with
  | [] | [_] => rfl
  | a :: b :: rest => exact hf (a ++ b) rest (by simpa using h)

theorem read4_bind_of_short {f : BitVec 32 × List Octet → Option α} (h : os.length < n + 4)
    (hf : ∀ v rest, rest.length < n → f (v, rest) = none) : (read4 os).bind f = none := by
  match os with
  | [] | [_] | [_, _] | [_, _, _] => rfl
  | a :: b :: c :: d :: rest => exact hf (a ++ b ++ c ++ d) rest (by simpa using h)

theorem readMany1_of_short (h : os.length < n) : readMany1 n os = none := by
  cases hr : readMany1 n os with
  | none => rfl
  | some x =>
    obtain ⟨hl, rfl⟩ := readMany1_eq_some.1 hr
    simp only [List.length_append] at h
    omega

theorem readMany2_of_short (h : os.length < 2 * n) : readMany2 n os = none := by
  cases hr : readMany2 n os with
  | none => rfl
  | some x =>
    obtain ⟨hl, rfl⟩ := readMany2_eq_some.1 hr
    have hw : (x.1.flatMap be2).length = 2 * x.1.length := by
      simp [List.length_flatMap, Nat.mul_comm]
    simp only [List.length_append] at h
    omega

theorem readPairs_of_short (h : os.length < 2 * n) : readPairs n os = none := by
  induction n generalizing os with
  | zero => omega
  | succ n ih =>
    match os with
    | [] | [_] => rfl
    | a :: b :: rest =>
      simp only [List.length_cons] at h
      rw [readPairs, ih (by omega)]
      rfl

theorem readPairs_flatMap (pairs : List (Octet × Octet)) (rest : List Octet) :
    readPairs pairs.length ((pairs.flatMap fun p => [p.1, p.2]) ++ rest) = some (pairs, rest) := by
  induction pairs with
  | nil => rfl
  | cons p pairs ih =>
    simp only [List.length_cons, List.flatMap_cons, List.cons_append, List.nil_append, readPairs, ih, Option.map_some]

/-- A request without all of its parameters is an undefined one. -/
theorem decodeRequest_of_none {code : Octet} {params : List Octet} (h : requestOf code params = none) :
    decodeRequest code params = .undefinedRequest code := by rw [decodeRequest, h, Option.getD_none]

theorem decodeRequest_of_some {code : Octet} {params : List Octet} {i : Instr} (h : requestOf code params = some i) :
    decodeRequest code params = i := by rw [decodeRequest, h, Option.getD_some]

theorem eq_none_of_length_lt_zero {o : Option α} (h : os.length < 0) : o = none := absurd h (Nat.not_lt_zero _)

theorem requestOf_of_short :
    ∀ x ∈ ([(0x02, 2), (0x03, 6), (0x04, 2), (0x05, 1), (0x10, 6), (0x11, 6), (0x12, 1), (0x20, 5), (0x21, 2), (0x22, 1),
      (0x23, 2), (0x24, 5), (0x30, 7), (0x31, 3), (0x32, 1), (0x40, 4), (0x41, 4), (0x42, 2), (0x50, 9)] :
      List (Octet × Nat)), ∀ params : List Octet, params.length < x.2 → requestOf x.1 params = none := by
  simp only [List.forall_mem_cons]
  refine ⟨fun p h => ?_, fun p h => ?_, fun p h => ?_, fun p h => ?_, fun p h => ?_, fun p h => ?_, fun p h => ?_,
    fun p h => ?_, fun p h => ?_, fun p h => ?_, fun p h => ?_, fun p h => ?_, fun p h => ?_, fun p h => ?_, fun p h => ?_,
    fun p h => ?_, fun p h => ?_, fun p h => ?_, fun p h => ?_, fun _ hx => by cases hx⟩
  · exact read1_bind_of_short h fun _ _ h => read1_bind_of_short h fun _ _ => eq_none_of_length_lt_zero
  · exact read1_bind_of_short h fun _ _ h => read1_bind_of_short h fun _ _ h => read2_bind_of_short h fun _ _ h =>
      read2_bind_of_short h fun _ _ => eq_none_of_length_lt_zero
  · exact read1_bind_of_short h fun _ _ h => read1_bind_of_short h fun _ _ => eq_none_of_length_lt_zero
  · exact read1_bind_of_short h fun _ _ => eq_none_of_length_lt_zero
  · exact read1_bind_of_short h fun _ _ h => read1_bind_of_short h fun _ _ h => read2_bind_of_short h fun _ _ h =>
      read2_bind_of_short h fun _ _ => eq_none_of_length_lt_zero
  · exact read1_bind_of_short h fun _ _ h => read1_bind_of_short h fun _ _ h => read1_bind_of_short h fun _ _ h =>
      read1_bind_of_short h fun _ _ h => read1_bind_of_short h fun _ _ h => read1_bind_of_short h fun _ _ => eq_none_of_length_lt_zero
  · exact read1_bind_of_short h fun _ _ => eq_none_of_length_lt_zero
  · exact read1_bind_of_short h fun _ _ h => read1_bind_of_short h fun _ _ h => read1_bind_of_short h fun _ _ h =>
      read2_bind_of_short h fun _ _ => eq_none_of_length_lt_zero
  · exact read1_bind_of_short h fun _ _ h => read1_bind_of_short h fun _ _ => eq_none_of_length_lt_zero
  · exact read1_bind_of_short h fun _ _ => eq_none_of_length_lt_zero
  · exact read1_bind_of_short h fun _ _ h => read1_bind_of_short h fun _ _ => eq_none_of_length_lt_zero
  · exact read4_bind_of_short h fun _ _ h => read1_bind_of_short h fun _ _ => eq_none_of_length_lt_zero
  · exact read1_bind_of_short h fun _ _ h => read2_bind_of_short h fun _ _ h => read2_bind_of_short h fun _ _ h =>
      read2_bind_of_short h fun _ _ => eq_none_of_length_lt_zero
  · exact read1_bind_of_short h fun _ _ h => read2_bind_of_short h fun _ _ => eq_none_of_length_lt_zero
  · exact read1_bind_of_short h fun _ _ => eq_none_of_length_lt_zero
  · exact read4_bind_of_short h fun _ _ => eq_none_of_length_lt_zero
  · exact read4_bind_of_short h fun _ _ => eq_none_of_length_lt_zero
  · exact read1_bind_of_short h fun _ _ h => read1_bind_of_short h fun _ _ => eq_none_of_length_lt_zero
  · exact read2_bind_of_short h fun _ _ h => read2_bind_of_short h fun _ _ h => read2_bind_of_short h fun _ _ h =>
      read2_bind_of_short h fun _ _ h => read1_bind_of_short h fun _ _ => eq_none_of_length_lt_zero

/-! ## Parameters that stand -/

section
variable (a b c d x y : Octet) (v w z u : BitVec 16) (l : BitVec 32) (rest : List Octet)

theorem decodeRequest_readTable : decodeRequest 0x03 (a :: b :: be2 v ++ be2 w ++ rest) = .readTable a b v w :=
  decodeRequest_of_some (by simp [requestOf, read1])

theorem decodeRequest_writeTable : decodeRequest 0x10 (a :: b :: be2 v ++ be2 w ++ rest) = .writeTable a b v w rest :=
  decodeRequest_of_some (by simp [requestOf, read1])

theorem decodeRequest_setStation : decodeRequest 0x20 (a :: b :: c :: be2 v ++ rest) = .setStation a b c v :=
  decodeRequest_of_some (by simp [requestOf, read1])

theorem decodeRequest_setFaultModes {pairs : List (Octet × Octet)} (h : pairs.length = b.toNat) :
    decodeRequest 0x21 (a :: b :: (pairs.flatMap fun p => [p.1, p.2]) ++ rest) = .setFaultModes a pairs := by
  have hp := readPairs_flatMap pairs rest
  rw [h] at hp
  exact decodeRequest_of_some (by simp [requestOf, read1, hp])

theorem decodeRequest_withdrawBody : decodeRequest 0x24 (be4 l ++ a :: rest) = .withdrawBody l a :=
  decodeRequest_of_some (by simp [requestOf, read1])

theorem decodeRequest_setGun : decodeRequest 0x30 (a :: be2 v ++ be2 w ++ be2 z ++ rest) = .setGun a v w z :=
  decodeRequest_of_some (by simp [requestOf, read1])

theorem decodeRequest_setWear : decodeRequest 0x31 (a :: be2 v ++ rest) = .setWear a v :=
  decodeRequest_of_some (by simp [requestOf, read1])

theorem decodeRequest_clearEvents : decodeRequest 0x40 (be4 l ++ rest) = .clearEvents l :=
  decodeRequest_of_some (by simp [requestOf])

theorem decodeRequest_setEventEnable : decodeRequest 0x41 (be4 l ++ rest) = .setEventEnable l :=
  decodeRequest_of_some (by simp [requestOf])

theorem decodeRequest_setMirror_arm :
    decodeRequest 0x42 (a :: 1 :: b :: c :: be2 v ++ x :: y :: rest) = .setMirror a 1 b c v x y :=
  decodeRequest_of_some (by simp [requestOf, read1])

theorem decodeRequest_setMirror_disarm (h : b ≠ 1) : decodeRequest 0x42 (a :: b :: rest) = .setMirror a b 0 0 0 0 0 :=
  decodeRequest_of_some (if_neg h)

theorem decodeRequest_configure {counts : List Octet} {robots : List Node} (hc : counts.length = a.toNat)
    (hr : robots.length = (counts.map BitVec.toNat).sum) :
    decodeRequest 0x50 (be2 v ++ be2 w ++ be2 z ++ be2 u ++ a :: counts ++ robots.flatMap be2 ++ rest) =
      .configure v w z u a counts robots := by
  have hcounts : readMany1 a.toNat (counts ++ (robots.flatMap be2 ++ rest)) = some (counts, robots.flatMap be2 ++ rest) :=
    readMany1_eq_some.2 ⟨hc, rfl⟩
  have hrobots : readMany2 (counts.map BitVec.toNat).sum (robots.flatMap be2 ++ rest) = some (robots, rest) :=
    readMany2_eq_some.2 ⟨hr, rfl⟩
  exact decodeRequest_of_some (by simp [requestOf, read1, hcounts, hrobots])

/-! ## Parameters that a count or an option asks for and that are missing -/

theorem decodeRequest_setFaultModes_short (h : rest.length < 2 * b.toNat) :
    decodeRequest 0x21 (a :: b :: rest) = .undefinedRequest 0x21 :=
  decodeRequest_of_none (by simp [requestOf, read1, readPairs_of_short h])

theorem decodeRequest_setMirror_short (h : rest.length < 6) :
    decodeRequest 0x42 (a :: 1 :: rest) = .undefinedRequest 0x42 := by
  refine decodeRequest_of_none ?_
  exact read1_bind_of_short h fun _ _ h => read1_bind_of_short h fun _ _ h => read2_bind_of_short h fun _ _ h =>
    read1_bind_of_short h fun _ _ h => read1_bind_of_short h fun _ _ => eq_none_of_length_lt_zero

theorem decodeRequest_configure_short {counts : List Octet} (hc : counts.length = a.toNat)
    (h : rest.length < 2 * (counts.map BitVec.toNat).sum) :
    decodeRequest 0x50 (be2 v ++ be2 w ++ be2 z ++ be2 u ++ a :: counts ++ rest) = .undefinedRequest 0x50 := by
  have hcounts : readMany1 a.toNat (counts ++ rest) = some (counts, rest) := readMany1_eq_some.2 ⟨hc, rfl⟩
  exact decodeRequest_of_none (by simp [requestOf, read1, hcounts, readMany2_of_short h])

theorem decodeRequest_configure_no_counts (h : rest.length < a.toNat) :
    decodeRequest 0x50 (be2 v ++ be2 w ++ be2 z ++ be2 u ++ a :: rest) = .undefinedRequest 0x50 :=
  decodeRequest_of_none (by simp [requestOf, read1, readMany1_of_short h])

end

theorem decodeRequest_of_undefined {code : Octet} (params : List Octet)
    (h : code ∉ ([0x01, 0x02, 0x03, 0x04, 0x05, 0x06, 0x10, 0x11, 0x12, 0x13, 0x14, 0x20, 0x21, 0x22, 0x23, 0x24, 0x30, 0x31,
      0x32, 0x40, 0x41, 0x42, 0x50, 0x51, 0x52, 0x53, 0x54] : List Octet)) :
    decodeRequest code params = .undefinedRequest code := by
  refine decodeRequest_of_none ?_
  simp only [List.mem_cons, List.not_mem_nil, or_false, not_or, ← BitVec.toNat_inj, BitVec.ofNat_eq_ofNat,
    BitVec.toNat_ofNat, Nat.reducePow, Nat.reduceMod] at h
  unfold requestOf
  split <;> first | rfl | omega

end Sys2Proof
end

section
open Sys2Proof Sys2Proof.Machine

/-- Settles O36: what a request leaves at the queues (`OwnGrows`), and the readers of the parameters run on their octets. -/
theorem everyRequestIsAnsweredByOneReply : Obligations.EveryRequestIsAnsweredByOneReply := by
  refine ⟨fun _ _ h => exec_request_answered h, fun _ code params h => exec_request_no_occasion code params h,
    fun a b c d x y v w z u l rest => ?_, fun x hx params h => decodeRequest_of_none (requestOf_of_short x hx params h),
    fun _ params h => decodeRequest_of_undefined params h, by decide, rfl, fun k i => by simp [TableId.inRange], rfl, rfl, rfl⟩
  exact ⟨rfl, rfl, decodeRequest_readTable a b v w rest, rfl, rfl, rfl, decodeRequest_writeTable a b v w rest, rfl, rfl, rfl, rfl,
    decodeRequest_setStation a b c v rest, fun _ h => decodeRequest_setFaultModes a b rest h, rfl, rfl,
    decodeRequest_withdrawBody a l rest, decodeRequest_setGun a v w z rest, decodeRequest_setWear a v rest, rfl,
    decodeRequest_clearEvents l rest, decodeRequest_setEventEnable l rest, decodeRequest_setMirror_arm a b c x y v rest,
    decodeRequest_setMirror_disarm a b rest, fun _ _ hc hr => decodeRequest_configure a v w z u rest hc hr, rfl, rfl, rfl, rfl,
    decodeRequest_setFaultModes_short a b rest, decodeRequest_setMirror_short a rest,
    fun _ hc h => decodeRequest_configure_short a v w z u rest hc h, decodeRequest_configure_no_counts a v w z u rest⟩

end

section
/-! Requests that only read, and the fields of their data in order (R40, R45, R80, R165 to R167, R192). -/

namespace Sys2Proof.Machine

open Octets

/-! ## Octets of flags, marks and codes (R192) -/

theorem flag1_eq (b : Bool) : flag1 b = [if b = true then 1 else 0] := by
  cases b <;> rfl

theorem nat1_originCode (o : Origin) : nat1 o.code = [match o with | .normal => 0 | .rework => 1] := by
  cases o <;> rfl

theorem nat1_bankCode (i : BankId) : nat1 i.code = [match i with | .a => 0 | .b => 1] := by
  cases i <;> rfl

theorem nat1_recordCode (x : RecordState) :
    nat1 x.code = [match x with | .queued => 0 | .active => 1 | .releasing => 2] := by
  cases x <;> rfl

theorem opt1_outcomeCode (o : Option BodyOutcome) :
    opt1 (o.map (·.code)) = [match o with | some .clean => 0 | some .faulted => 1 | some .aborted => 2 | none => 255] := by
  rcases o with _ | o
  · rfl
  · cases o <;> rfl

theorem nat1_expansionCode (k : Option ExpansionErrorKind) : nat1 (expansionCode k) =
    [match k with | none => 0 | some .depth => 1 | some .length => 2 | some .missing => 3] := by
  rcases k with _ | k
  · rfl
  · cases k <;> rfl

theorem nat1_slotCode (x : SlotState) : nat1 x.code =
    [match x with
      | .waiting => 0 | .selected => 1 | .loaded => 2 | .finished => 3 | .faulted => 4 | .cancelled => 5] := by
  cases x <;> rfl

/-! ## READ BODY and READ GUN (R80, R166) -/

theorem State.gunOctets_eq (s : State) (g : SlotId) : s.gunOctets g =
    nat1 g.val ++ [if s.slotConfigured g = true then 1 else 0] ++ nat2 (s.gun g).wear ++
      [if (s.gun g).wearUnknown = true then 1 else 0, if (s.gun g).dressDue = true then 1 else 0] ++
      nat2 (s.gun g).dressCount ++ nat2 (s.gun g).capChanges ++ nat2 (s.gun g).dressLimit ++ nat2 (s.gun g).hardLimit ++
      nat2 (s.gun g).ceiling := by
  simp only [State.gunOctets, flag1_eq, List.append_assoc, List.cons_append, List.nil_append]

theorem BodyRecord.fieldOctets_eq (r : BodyRecord) : r.fieldOctets =
    be4 r.bodyId ++ nat1 r.station.val ++ be2 r.style ++ opt1 r.row ++ be2 r.options ++ nat1 r.variant ++
      ([match r.origin with | .normal => 0 | .rework => 1, match r.bankTag with | .a => 0 | .b => 1,
        match r.state with | .queued => 0 | .active => 1 | .releasing => 2] : List Octet) ++
      be4 r.announcedAt ++ optTime r.startedAt ++ optTime r.releasedAt ++
      nat1 r.entries.length ++ r.entries.flatMap SlotEntry.fieldOctets ++
      ([if r.bodyHeld = true then 1 else 0,
        match r.outcome with | some .clean => 0 | some .faulted => 1 | some .aborted => 2 | none => 255] :
        List Octet) := by
  unfold BodyRecord.fieldOctets
  rw [nat1_originCode, nat1_bankCode, nat1_recordCode, flag1_eq, opt1_outcomeCode]
  simp only [counted, List.append_assoc, List.cons_append, List.nil_append] <;> rfl

theorem SlotEntry.fieldOctets_eq (e : SlotEntry) : e.fieldOctets =
    nat1 e.position.val ++ nat2 e.effectivePlan ++
      nat1 e.overlays.length ++ e.overlays.flatMap nat1 ++ nat1 (e.program.getD 0) ++
      nat1 e.groups.length ++ (e.groups.flatMap fun y =>
        nat1 y.schedule ++ nat1 y.spots ++ nat2 y.weldTime ++ nat2 y.current) ++
      nat2 (e.plannedSpots.getD 0) ++
      ([match e.expansionError with | none => 0 | some .depth => 1 | some .length => 2 | some .missing => 3,
        if e.clamp = true then 1 else 0, if e.dressRequested = true then 1 else 0, if e.wearUnconfirmed = true then 1 else 0,
        match e.state with
          | .waiting => 0 | .selected => 1 | .loaded => 2 | .finished => 3 | .faulted => 4 | .cancelled => 5,
        e.faults, if e.held = true then 1 else 0, if e.warned = true then 1 else 0] : List Octet) ++
      opt2 e.refusalReason ++ opt2 e.spotsWelded ++ be2 (e.tag.getD 0) ++ optTime e.selectedAt ++ optTime e.readyAt := by
  have hgroups : groupOctets = fun y : Group =>
      nat1 y.schedule ++ nat1 y.spots ++ nat2 y.weldTime ++ nat2 y.current := rfl
  unfold SlotEntry.fieldOctets
  rw [nat1_expansionCode, nat1_slotCode, hgroups]
  simp only [counted, flag1_eq, List.append_assoc, List.cons_append, List.nil_append] <;> rfl

theorem State.answerReadBody_eq (s : State) (a b : Octet) : s.answerReadBody a b =
    if h : a.toNat < 4 ∧ a.toNat < s.tracker.stationCount ∧ b.toNat ≤ 3 then
      match (s.station ⟨a.toNat, h.1⟩).queue[b.toNat]? with
      | some r => ⟨s, .done, r.fieldOctets⟩
      | none => ⟨s, .notFound, []⟩
    else ⟨s, .badParameter, []⟩ := by
  unfold State.answerReadBody
  split
  · next hn =>
    have hc := State.configuredStation?_eq_none.1 hn
    rw [dif_neg (by omega)]
    rfl
  · next st hs =>
    obtain ⟨ha, hc⟩ := State.configuredStation?_eq_some.1 hs
    split
    · next hb =>
      rw [dif_neg (by omega)]
      rfl
    · next hb =>
      have h4 : a.toNat < 4 := by have := st.isLt; omega
      have hst : (⟨a.toNat, h4⟩ : StationId) = st := Fin.ext ha
      rw [dif_pos ⟨h4, by omega, by omega⟩, hst]
      cases (s.station st).queue[b.toNat]? <;> rfl

theorem TableId.runInRange_iff (k : TableId) (first count : Nat) : k.runInRange first count = true ↔
    count ≠ 0 ∧ k.firstIndex ≤ first ∧ first + count ≤ k.firstIndex + k.capacity := by
  simp only [TableId.runInRange, TableId.inRange, Bool.and_eq_true, decide_eq_true_eq]
  omega

/-! ## READ STATUS (R165) -/

theorem State.longOpOctets_eq (s : State) : s.longOpOctets =
    match s.agent.longOp with
    | none => [255, 0]
    | some y =>
      ([match y.kind with | .copyBank => 0 | .swap => 1 | .storeImage => 2 | .loadImage => 3, 1] : List Octet) ++
        be4 y.acceptedAt := by
  unfold State.longOpOctets
  rcases s.agent.longOp with _ | ⟨kind, acceptedAt, _⟩
  · rfl
  · cases kind <;> rfl

theorem State.bankOctets_eq (s : State) (i : BankId) : s.bankOctets i =
    ([if s.banks.active = i then 0
      else match s.banks.other with | .shadow => 1 | .validating => 2 | .draining => 3,
      if s.banks.active = i then (if s.banks.validated = true then 1 else 0) else 255,
      if s.banks.active ≠ i ∧ s.banks.other = .shadow then (if s.banks.loadIncomplete = true then 1 else 0) else 255] :
      List Octet) ++
    nat2 (s.tagCount i) := by
  have hcode : nat1 (s.banks.stateCode i) = [if s.banks.active = i then 0
      else match s.banks.other with | .shadow => 1 | .validating => 2 | .draining => 3] := by
    simp only [Banks.stateCode, Banks.isActive, beq_iff_eq]
    split
    · rfl
    · cases s.banks.other <;> rfl
  have hvalidated : markWhen (s.banks.isActive i) s.banks.validated =
      [if s.banks.active = i then (if s.banks.validated = true then 1 else 0) else 255] := by
    simp only [markWhen, flag1_eq, Banks.isActive, beq_iff_eq]
    split <;> rfl
  have hload : markWhen (s.banks.isShadow i) s.banks.loadIncomplete =
      [if s.banks.active ≠ i ∧ s.banks.other = .shadow then (if s.banks.loadIncomplete = true then 1 else 0) else 255] := by
    simp only [markWhen, flag1_eq, Banks.isShadow, Bool.and_eq_true, Bool.not_eq_true', beq_eq_false_iff_ne, beq_iff_eq]
    split <;> rfl
  rw [State.bankOctets, hcode, hvalidated, hload]
  rfl

theorem ValidationReport.octets_eq (x : ValidationReport) : x.octets =
    ([match x.outcome with | .none => 0 | .passed => 1 | .failed => 2,
      match x.bank with | some .a => 0 | some .b => 1 | none => 255,
      match x.table with
        | some .styles => 0 | some .matrix => 1 | some .overlays => 2 | some .plans => 3 | some .schedules => 4
        | some .curves => 5 | none => 255] : List Octet) ++
    opt2 x.index ++ opt1 x.detail ++
    ([match x.reason with
      | some .rowRange => 0 | some .planRange => 1 | some .planMissing => 2 | some .scheduleMissing => 3
      | some .curveMissing => 4 | none => 255] : List Octet) ++
    opt2 x.referenced ++ optTime x.endedAt := by
  have houtcome : nat1 x.outcome.code = [match x.outcome with | .none => 0 | .passed => 1 | .failed => 2] := by
    cases x.outcome <;> rfl
  have hbank : opt1 (x.bank.map (·.code)) = [match x.bank with | some .a => 0 | some .b => 1 | none => 255] := by
    rcases x.bank with _ | i
    · rfl
    · cases i <;> rfl
  have htable : opt1 (x.table.map (·.number.val)) = [match x.table with
      | some .styles => 0 | some .matrix => 1 | some .overlays => 2 | some .plans => 3 | some .schedules => 4
      | some .curves => 5 | none => 255] := by
    rcases x.table with _ | k
    · rfl
    · cases k <;> rfl
  have hreason : opt1 (x.reason.map (·.code)) = [match x.reason with
      | some .rowRange => 0 | some .planRange => 1 | some .planMissing => 2 | some .scheduleMissing => 3
      | some .curveMissing => 4 | none => 255] := by
    rcases x.reason with _ | k
    · rfl
    · cases k <;> rfl
  rw [ValidationReport.octets, houtcome, hbank, htable, hreason]
  rfl

theorem State.stationOctets_eq (s : State) (st : StationId) : s.stationOctets st =
    ([match (s.station st).state with | .offline => 0 | .idle => 1 | .dispatching => 2 | .held => 3 | .manual => 4,
      if (s.station st).dry = true then 1 else 0] : List Octet) ++
    nat2 (s.station st).readyLimit ++ nat1 (s.station st).queue.length ++
      [.readyTimeout, .readyRefused, .cycleTimeout, .shortCycle, .spotShortfall, .qualityReject, .wearOverrun,
        .expansionError, .unknownStyle].flatMap fun k =>
          nat1 (match s.mode st k with | .hold => 0 | .pass => 1 | .warn => 2 | .off => 3) := by
  have hstate : nat1 (s.station st).state.code = [match (s.station st).state with
      | .offline => 0 | .idle => 1 | .dispatching => 2 | .held => 3 | .manual => 4] := by
    cases (s.station st).state <;> rfl
  rw [State.stationOctets, hstate, flag1_eq]
  rfl

theorem State.shapeOctets_eq (s : State) :
    let stations := (List.finRange 4).filter fun st => st.val < s.tracker.stationCount
    let slots := (List.finRange 32).filter s.slotConfigured
    s.shapeOctets =
      be2 s.filter.protocolType ++ be2 s.filter.ownNode ++ optNode s.filter.controllerNode ++
      optNode s.filter.trackerNode ++ nat1 s.tracker.stationCount ++
      nat1 stations.length ++ (stations.flatMap fun st => nat1 s.tracker.slotCounts[st]) ++
      nat1 slots.length ++ (slots.flatMap fun g => optNode (s.robotNode? g)) := by
  have hstations : allStations = List.finRange 4 := by decide
  have hslots : allSlots = List.finRange 32 := by decide
  simp only [State.shapeOctets, State.configuredStations, State.allConfiguredSlots, hstations, hslots, counted,
    List.append_assoc]

theorem linkOctet_eq (up : Bool) : linkOctet up = [if up = true then 0 else 1] := by
  cases up <;> rfl

end Sys2Proof.Machine
end

section
open Sys2Proof Sys2Proof.Machine

/-- Settles O37: each reading request answers from the state it leaves alone; the layouts are written out part by part. -/
theorem readRequestsChangeNothing : Obligations.ReadRequestsChangeNothing := by
  refine ⟨fun s e a b c first count => ?_, fun _ k first count h => Tables.runOctets_spec h k first count,
    fun s g => s.gunOctets_eq g, fun r => r.fieldOctets_eq, fun e => e.fieldOctets_eq, fun s => ?_⟩
  · refine ⟨fun h => event_of_executes_refused h rfl, fun h => event_of_executes_refused h rfl, fun h => ?_, fun h => ?_,
      fun h => ?_, fun h => event_of_executes_refused h rfl, fun h => event_of_executes_refused h rfl⟩
    · have ha := s.answerReadBody_eq a b
      split
      · next hc =>
        rw [dif_pos hc] at ha
        split
        · next hr => exact event_of_executes_refused h (ha.trans (by rw [hr]))
        · next hr => exact event_of_executes_refused h (ha.trans (by rw [hr]))
      · next hc => exact event_of_executes_refused h (ha.trans (dif_neg hc))
    · split
      · next i k hi hk =>
        have ha : s.answerReadTable a b first count = if k.runInRange first.toNat count.toNat then
            ⟨s, .done, (s.banks.tables i).runOctets k first.toNat count.toNat⟩ else s.result .badParameter := by
          rw [State.answerReadTable, hi, hk]
        split
        · next hr => exact event_of_executes_refused h (ha.trans (if_pos ((k.runInRange_iff _ _).2 hr)))
        · next hr => exact event_of_executes_refused h (ha.trans (if_neg fun hx => hr ((k.runInRange_iff _ _).1 hx)))
      · next hn =>
        refine event_of_executes_refused h ?_
        unfold State.answerReadTable
        split
        · next i k hi hk => exact absurd hk (hn i k hi)
        · rfl
    · split
      · next hc =>
        obtain ⟨hb, hsum⟩ := hc
        exact event_of_executes_refused h (if_neg (not_or.2 ⟨hb, by omega⟩))
      · next hc =>
        refine event_of_executes_refused h (if_pos ?_)
        by_cases hb : b = 0
        · exact .inl hb
        · exact .inr (by by_contra hx; exact hc ⟨hb, by omega⟩)
  · intro bank x report station stations slots
    have hbank : ∀ i, s.bankOctets i = bank i := s.bankOctets_eq
    have hreport : s.banks.report.octets = report := ValidationReport.octets_eq _
    have hstation : allStations.flatMap s.stationOctets = (List.finRange 4).flatMap station := by
      have : s.stationOctets = station := funext s.stationOctets_eq
      rw [this]
      rfl
    have hpart : Octets.nat1 s.agent.partState.code =
        [match s.agent.partState with | .commissioning => 0 | .live => 1] := by cases s.agent.partState <;> rfl
    have hscope : Octets.nat1 s.holdScope.code = [match s.holdScope with | .station => 0 | .wholeSection => 1] := by
      cases s.holdScope <;> rfl
    rw [State.statusOctets, hpart, State.longOpOctets_eq, hbank, hbank, hreport, hscope, hstation, State.shapeOctets_eq,
      flag1_eq, linkOctet_eq, linkOctet_eq]
    simp only [List.append_assoc, List.cons_append, List.nil_append] <;> rfl

end

section
/-! Validation (R44, R45): the failing references of some tables listed in the order of the tests, of which a validation finds the
first. -/

namespace Sys2Proof.Machine

/-! ## The failing references, entry by entry -/

/-- What the test of a directory entry finds. -/
def styleFailures (e : Nat × StyleEntry) : List ValidationFailure :=
  if 63 < e.2.row then [⟨.styles, e.1, none, .rowRange, e.2.row⟩] else []

/-- What the test of a plan that a matrix cell's run names finds, at a variant offset. -/
def cellPlanFailures (t : Tables) (e : Nat × MatrixCell) (offset : Nat) : List ValidationFailure :=
  if (t.plan? (e.2.basePlan + offset)).isNone then
    [⟨.matrix, e.1, some offset, .planMissing, e.2.basePlan + offset⟩]
  else []

/-- What the test of a matrix cell finds. -/
def cellFailures (t : Tables) (e : Nat × MatrixCell) : List ValidationFailure :=
  if e.2.basePlan = 0 then []
  else if 512 < e.2.basePlan + e.2.span - 1 then
    [⟨.matrix, e.1, none, .planRange, e.2.basePlan + e.2.span - 1⟩]
  else (List.range e.2.span).flatMap (cellPlanFailures t e)

/-- What the test of an overlay finds. -/
def overlayFailures (t : Tables) (e : Nat × OverlayEntry) : List ValidationFailure :=
  if (t.plan? e.2.plan).isNone then [⟨.overlays, e.1, none, .planMissing, e.2.plan⟩] else []

/-- What the test of a step of a plan finds, at a place in the plan. -/
def stepFailures (t : Tables) (i : Nat) (x : PlanStep × Nat) : List ValidationFailure :=
  match x.1 with
  | .group schedule _ =>
    if (t.schedule? schedule).isNone then [⟨.plans, i, some (x.2 + 1), .scheduleMissing, schedule⟩] else []
  | .call plan => if (t.plan? plan).isNone then [⟨.plans, i, some (x.2 + 1), .planMissing, plan⟩] else []

/-- What the test of a plan finds. -/
def planFailures (t : Tables) (e : Nat × PlanEntry) : List ValidationFailure :=
  e.2.steps.zipIdx.flatMap (stepFailures t e.1)

/-- What the test of a schedule finds. -/
def scheduleFailures (t : Tables) (e : Nat × ScheduleEntry) : List ValidationFailure :=
  if e.2.curve ≠ 0 ∧ (t.curve? e.2.curve).isNone then [⟨.schedules, e.1, none, .curveMissing, e.2.curve⟩] else []

/-- Every failing reference of some tables, in the order of the tests (R44). -/
def referenceFailures (t : Tables) : List ValidationFailure :=
  t.styles.flatMap styleFailures ++ (t.matrix.flatMap (cellFailures t) ++ (t.overlays.flatMap (overlayFailures t) ++
    (t.plans.flatMap (planFailures t) ++ t.schedules.flatMap (scheduleFailures t))))

/-! ## A validation finds the first of them -/

theorem head?_ite_singleton {α : Type} (c : Prop) [Decidable c] (a : α) :
    (if c then [a] else []).head? = if c then some a else none := by split <;> rfl

theorem head?_cellFailures (t : Tables) (e : Nat × MatrixCell) : (cellFailures t e).head? =
    if e.2.basePlan = 0 then none
    else if 512 < e.2.basePlan + e.2.span - 1 then some ⟨.matrix, e.1, none, .planRange, e.2.basePlan + e.2.span - 1⟩
    else
      (List.range e.2.span).findSome? fun k =>
        if (t.plan? (e.2.basePlan + k)).isNone then some ⟨.matrix, e.1, some k, .planMissing, e.2.basePlan + k⟩
        else none := by
  unfold cellFailures cellPlanFailures
  split
  · rfl
  · split
    · rfl
    · simp only [List.head?_flatMap, head?_ite_singleton]

theorem head?_stepFailures (t : Tables) (i : Nat) (x : PlanStep × Nat) : (stepFailures t i x).head? =
    match x.1 with
    | .group schedule _ =>
      if (t.schedule? schedule).isNone then some ⟨.plans, i, some (x.2 + 1), .scheduleMissing, schedule⟩ else none
    | .call plan =>
      if (t.plan? plan).isNone then some ⟨.plans, i, some (x.2 + 1), .planMissing, plan⟩ else none := by
  unfold stepFailures
  split <;> exact head?_ite_singleton _ _

/-- A validation finds the first failing reference in the order of the tests. -/
theorem validationFailure_eq_head? (t : Tables) : validationFailure t = (referenceFailures t).head? := by
  have styles : styleFailure t = (t.styles.flatMap styleFailures).head? := by
    simp only [styleFailure, styleFailures, List.head?_flatMap, head?_ite_singleton]
  have cells : matrixFailure t = (t.matrix.flatMap (cellFailures t)).head? := by
    simp only [matrixFailure, List.head?_flatMap, head?_cellFailures]
  have overlays : overlayFailure t = (t.overlays.flatMap (overlayFailures t)).head? := by
    simp only [overlayFailure, overlayFailures, List.head?_flatMap, head?_ite_singleton]
  have plans : planFailure t = (t.plans.flatMap (planFailures t)).head? := by
    simp only [planFailure, planFailures, List.head?_flatMap, head?_stepFailures] <;> rfl
  have schedules : scheduleFailure t = (t.schedules.flatMap (scheduleFailures t)).head? := by
    simp only [scheduleFailure, scheduleFailures, List.head?_flatMap, head?_ite_singleton]
  simp only [validationFailure, referenceFailures, List.head?_append, styles, cells, overlays, plans, schedules]

/-! ## They are the failing references -/

theorem mem_ite_singleton {α : Type} {c : Prop} [Decidable c] {a f : α} : f ∈ (if c then [a] else []) ↔ c ∧ f = a := by
  split <;> simp [*]

theorem mem_cellFailures {t : Tables} {e : Nat × MatrixCell} {f : ValidationFailure} : f ∈ cellFailures t e ↔
    e.2.basePlan ≠ 0 ∧
      ((512 < e.2.basePlan + e.2.span - 1 ∧ f = ⟨.matrix, e.1, none, .planRange, e.2.basePlan + e.2.span - 1⟩) ∨
        (e.2.basePlan + e.2.span - 1 ≤ 512 ∧ ∃ offset < e.2.span, t.plan? (e.2.basePlan + offset) = none ∧
          f = ⟨.matrix, e.1, some offset, .planMissing, e.2.basePlan + offset⟩)) := by
  unfold cellFailures
  split
  · next h => simp [h]
  · next h =>
    split
    · next hr => simp [h, hr, Nat.not_le.2 hr]
    · next hr =>
      simp only [List.mem_flatMap, List.mem_range, cellPlanFailures, mem_ite_singleton, Option.isNone_iff_eq_none]
      simp [h, hr, Nat.not_lt.1 hr]

theorem mem_stepFailures {t : Tables} {i : Nat} {x : PlanStep × Nat} {f : ValidationFailure} : f ∈ stepFailures t i x ↔
    (∃ schedule spots, x.1 = .group schedule spots ∧ t.schedule? schedule = none ∧
      f = ⟨.plans, i, some (x.2 + 1), .scheduleMissing, schedule⟩) ∨
    ∃ plan, x.1 = .call plan ∧ t.plan? plan = none ∧ f = ⟨.plans, i, some (x.2 + 1), .planMissing, plan⟩ := by
  unfold stepFailures
  split
  · next h => simp [h]
  · next h => simp [h]

/-- The references listed are those that fail their tests. -/
theorem mem_referenceFailures {t : Tables} {f : ValidationFailure} : f ∈ referenceFailures t ↔ ReferenceFails t f := by
  simp only [referenceFailures, List.mem_append, List.mem_flatMap]
  constructor
  · rintro (⟨⟨i, e⟩, he, h⟩ | ⟨⟨i, c⟩, hc, h⟩ | ⟨⟨i, e⟩, he, h⟩ | ⟨⟨i, e⟩, he, h⟩ | ⟨⟨i, e⟩, he, h⟩)
    · obtain ⟨hr, rfl⟩ := mem_ite_singleton.1 h
      exact .row he hr
    · obtain ⟨h0, ⟨hr, rfl⟩ | ⟨hr, offset, ho, hp, rfl⟩⟩ := mem_cellFailures.1 h
      · exact .planRange hc h0 hr
      · exact .cellPlan hc h0 hr ho hp
    · obtain ⟨hp, rfl⟩ := mem_ite_singleton.1 h
      exact .overlayPlan he (Option.isNone_iff_eq_none.1 hp)
    · obtain ⟨⟨x, n⟩, hx, h⟩ := List.mem_flatMap.1 h
      have hn : e.steps[n]? = some x := List.mem_zipIdx_iff_getElem?.1 hx
      obtain ⟨schedule, spots, rfl, hs, rfl⟩ | ⟨plan, rfl, hp, rfl⟩ := mem_stepFailures.1 h
      · exact .stepSchedule he hn hs
      · exact .stepPlan he hn hp
    · obtain ⟨⟨h0, hc⟩, rfl⟩ := mem_ite_singleton.1 h
      exact .curve he h0 (Option.isNone_iff_eq_none.1 hc)
  · intro h
    cases h with
    | row he hr => exact .inl ⟨_, he, mem_ite_singleton.2 ⟨hr, rfl⟩⟩
    | planRange hc h0 hr => exact .inr (.inl ⟨_, hc, mem_cellFailures.2 ⟨h0, .inl ⟨hr, rfl⟩⟩⟩)
    | cellPlan hc h0 hr ho hp => exact .inr (.inl ⟨_, hc, mem_cellFailures.2 ⟨h0, .inr ⟨hr, _, ho, hp, rfl⟩⟩⟩)
    | overlayPlan he hp =>
      exact .inr (.inr (.inl ⟨_, he, mem_ite_singleton.2 ⟨Option.isNone_iff_eq_none.2 hp, rfl⟩⟩))
    | stepSchedule he hn hs =>
      exact .inr (.inr (.inr (.inl ⟨_, he, List.mem_flatMap.2 ⟨(_, _), List.mem_zipIdx_iff_getElem?.2 hn,
        mem_stepFailures.2 (.inl ⟨_, _, rfl, hs, rfl⟩)⟩⟩)))
    | stepPlan he hn hp =>
      exact .inr (.inr (.inr (.inl ⟨_, he, List.mem_flatMap.2 ⟨(_, _), List.mem_zipIdx_iff_getElem?.2 hn,
        mem_stepFailures.2 (.inr ⟨_, rfl, hp, rfl⟩)⟩⟩)))
    | curve he h0 hc =>
      exact .inr (.inr (.inr (.inr ⟨_, he, mem_ite_singleton.2 ⟨⟨h0, Option.isNone_iff_eq_none.2 hc⟩, rfl⟩⟩)))

/-! ## They stand in the order of the tests -/

/-- The failures of one entry of a table: all of them at its index, their steps or variant offsets rising. -/
structure EntryFailures (k : TableId) (i : Nat) (l : List ValidationFailure) : Prop where
  place : ∀ f ∈ l, f.table = k ∧ f.index = i
  rising : l.Pairwise fun f f' => f.detail.getD 0 < f'.detail.getD 0

theorem EntryFailures.of_ite {k : TableId} {i : Nat} {c : Prop} [Decidable c] {f : ValidationFailure} (hk : f.table = k)
    (hi : f.index = i) : EntryFailures k i (if c then [f] else []) where
  place := fun f' h => by
    obtain ⟨-, rfl⟩ := mem_ite_singleton.1 h
    exact ⟨hk, hi⟩
  rising := by split <;> simp

/-- Failures that each stand at a place of their own, the places rising. -/
theorem pairwise_flatMap_of_place {α : Type} {l : List α} {g : α → List ValidationFailure} {place : α → Nat}
    (hl : l.Pairwise fun x y => place x < place y) (h1 : ∀ x, (g x).length ≤ 1)
    (hg : ∀ x, ∀ f ∈ g x, f.detail.getD 0 = place x) :
    (l.flatMap g).Pairwise fun f f' => f.detail.getD 0 < f'.detail.getD 0 := by
  refine List.pairwise_flatMap.2 ⟨fun x _ => ?_, hl.imp fun hxy f hf f' hf' => ?_⟩
  · match g x, h1 x with
    | [], _ => exact .nil
    | [_], _ => exact List.pairwise_singleton _ _
  · rw [hg _ f hf, hg _ f' hf']
    exact hxy

theorem cellFailures_entry (t : Tables) (e : Nat × MatrixCell) : EntryFailures .matrix e.1 (cellFailures t e) where
  place := fun f h => by
    obtain ⟨-, ⟨-, rfl⟩ | ⟨-, _, -, -, rfl⟩⟩ := mem_cellFailures.1 h <;> exact ⟨rfl, rfl⟩
  rising := by
    unfold cellFailures
    split
    · exact .nil
    · split
      · exact List.pairwise_singleton _ _
      · refine pairwise_flatMap_of_place (place := id) List.pairwise_lt_range (fun x => ?_) fun x f hf => ?_
        · unfold cellPlanFailures
          split <;> simp
        · obtain ⟨-, rfl⟩ := mem_ite_singleton.1 hf
          rfl

theorem planFailures_entry (t : Tables) (e : Nat × PlanEntry) : EntryFailures .plans e.1 (planFailures t e) where
  place := fun f h => by
    obtain ⟨x, -, h⟩ := List.mem_flatMap.1 h
    obtain ⟨_, _, -, -, rfl⟩ | ⟨_, -, -, rfl⟩ := mem_stepFailures.1 h <;> exact ⟨rfl, rfl⟩
  rising := by
    refine pairwise_flatMap_of_place (place := fun x => x.2 + 1) ?_ (fun x => ?_) fun x f hf => ?_
    · have : (e.2.steps.zipIdx.map (·.2)).Pairwise (· < ·) := by
        rw [List.zipIdx_map_snd]
        exact List.pairwise_lt_range'
      exact (List.pairwise_map.1 this).imp fun h => Nat.succ_lt_succ h
    · unfold stepFailures
      split <;> split <;> simp
    · obtain ⟨_, _, -, -, rfl⟩ | ⟨_, -, -, rfl⟩ := mem_stepFailures.1 hf <;> rfl

/-- The failures of a table in canonical form stand in the order of the tests. -/
theorem pairwise_tableFailures {α : Type} {l : List (Nat × α)} (hl : tableWf l = true) {k : TableId}
    {g : Nat × α → List ValidationFailure} (hg : ∀ e, EntryFailures k e.1 (g e)) :
    (l.flatMap g).Pairwise ValidationFailure.before := by
  refine List.pairwise_flatMap.2 ⟨fun e _ => ?_, (tableWf_iff.1 hl).imp fun {e e'} hlt f hf f' hf' => ?_⟩
  · refine (hg e).rising.imp_of_mem fun {f f'} hf hf' hd => .inr ?_
    obtain ⟨hk, hi⟩ := (hg e).place f hf
    obtain ⟨hk', hi'⟩ := (hg e).place f' hf'
    exact ⟨hk.trans hk'.symm, .inr ⟨hi.trans hi'.symm, hd⟩⟩
  · obtain ⟨hk, hi⟩ := (hg e).place f hf
    obtain ⟨hk', hi'⟩ := (hg e').place f' hf'
    exact .inr ⟨hk.trans hk'.symm, .inl (by rw [hi, hi']; exact hlt)⟩

/-- Failures in the order of the tests, none of a table ahead of a given number. -/
structure InOrderFrom (n : Nat) (l : List ValidationFailure) : Prop where
  ordered : l.Pairwise ValidationFailure.before
  tables : ∀ f ∈ l, n ≤ f.table.number

/-- The failures of one table ahead of those of the tables behind it. -/
theorem InOrderFrom.append {α : Type} {l : List (Nat × α)} (hl : tableWf l = true) {k : TableId}
    {g : Nat × α → List ValidationFailure} (hg : ∀ e, EntryFailures k e.1 (g e)) {m : List ValidationFailure}
    (hm : InOrderFrom (k.number + 1) m) : InOrderFrom k.number (l.flatMap g ++ m) := by
  have table : ∀ f ∈ l.flatMap g, f.table = k := fun f hf => by
    obtain ⟨e, -, he⟩ := List.mem_flatMap.1 hf
    exact ((hg e).place f he).1
  refine ⟨List.pairwise_append.2 ⟨pairwise_tableFailures hl hg, hm.ordered, fun f hf f' hf' => .inl ?_⟩, fun f hf => ?_⟩
  · rw [table f hf]
    exact Fin.lt_def.2 (hm.tables f' hf')
  · rcases List.mem_append.1 hf with hf | hf
    · rw [table f hf]
    · exact Nat.le_of_succ_le (hm.tables f hf)

/-- The failing references of tables in canonical form stand in the order of the tests. -/
theorem pairwise_referenceFailures {t : Tables} (h : t.wf = true) :
    (referenceFailures t).Pairwise ValidationFailure.before := by
  obtain ⟨h1, h2, h3, h4, h5, -⟩ := Tables.wf_iff.1 h
  have schedules : InOrderFrom TableId.schedules.number (t.schedules.flatMap (scheduleFailures t)) := by
    have := InOrderFrom.append h5 (k := .schedules) (g := scheduleFailures t) (fun e => .of_ite rfl rfl) (m := []) ⟨.nil, by simp⟩
    rwa [List.append_nil] at this
  have plans := InOrderFrom.append h4 (planFailures_entry t) schedules
  have overlays := InOrderFrom.append h3 (k := .overlays) (g := overlayFailures t) (fun e => .of_ite rfl rfl) plans
  have cells := InOrderFrom.append h2 (cellFailures_entry t) overlays
  exact (InOrderFrom.append h1 (k := .styles) (g := styleFailures) (fun e => .of_ite rfl rfl) cells).ordered

theorem ValidationFailure.before_asymm {f f' : ValidationFailure} (h : f.before f') : ¬f'.before f := by
  unfold ValidationFailure.before at *
  rintro (h' | ⟨h1, h'⟩) <;> rcases h with h | ⟨h2, h⟩
  · exact absurd h (Fin.lt_asymm h')
  · rw [h2] at h'
    exact absurd h' (Fin.lt_irrefl _)
  · rw [h1] at h
    exact absurd h (Fin.lt_irrefl _)
  · omega

/-- In a list whose items stand in an asymmetric order, the first is the one ahead of every other. -/
theorem head?_eq_some_iff_of_pairwise {α : Type} {R : α → α → Prop} (asymm : ∀ {a b}, R a b → ¬R b a) {l : List α}
    (h : l.Pairwise R) {a : α} : l.head? = some a ↔ a ∈ l ∧ ∀ b ∈ l, b = a ∨ R a b := by
  cases l with
  | nil => simp
  | cons x rest =>
    obtain ⟨hx, -⟩ := List.pairwise_cons.1 h
    simp only [List.head?_cons, Option.some.injEq]
    constructor
    · rintro rfl
      exact ⟨List.mem_cons_self, fun b hb => (List.mem_cons.1 hb).imp_right (hx b)⟩
    · rintro ⟨ha, hb⟩
      rcases hb x List.mem_cons_self with e | hr
      · exact e
      · rcases List.mem_cons.1 ha with e | ha
        · exact e.symm
        · exact absurd hr (asymm (hx a ha))

theorem validationFailure_eq_some {t : Tables} (h : t.wf = true) {f : ValidationFailure} :
    validationFailure t = some f ↔ ReferenceFails t f ∧ ∀ f', ReferenceFails t f' → f' = f ∨ f.before f' := by
  rw [validationFailure_eq_head?,
    head?_eq_some_iff_of_pairwise ValidationFailure.before_asymm (pairwise_referenceFailures h)]
  simp only [mem_referenceFailures]

theorem validationFailure_eq_none {t : Tables} : validationFailure t = none ↔ ∀ f, ¬ReferenceFails t f := by
  rw [validationFailure_eq_head?, List.head?_eq_none_iff, List.eq_nil_iff_forall_not_mem]
  simp only [mem_referenceFailures]

end Sys2Proof.Machine

section

open Sys2Proof Sys2Proof.Machine

/-- Settles O45: a validation finds the head of the list of failing references, which stands in the order of the tests. -/
theorem validationPassesExactlySoundReferences : Obligations.ValidationPassesExactlySoundReferences := by
  refine ⟨fun t f h => validationFailure_eq_some h, fun t => validationFailure_eq_none.trans ⟨fun h => ?_, ?_⟩⟩
  · refine ⟨fun e he => ?_, fun e he h0 => ?_, fun e he => ?_, fun e he x hx => ?_, fun e he h0 => ?_⟩
    · by_contra hr
      exact h _ (.row he (Nat.not_le.1 hr))
    · have hr : e.2.basePlan + e.2.span - 1 ≤ 512 := by
        by_contra hr
        exact h _ (.planRange he h0 (Nat.not_le.1 hr))
      exact ⟨hr, fun k hk => Option.isSome_iff_ne_none.2 fun hp => h _ (.cellPlan he h0 hr hk hp)⟩
    · exact Option.isSome_iff_ne_none.2 fun hp => h _ (.overlayPlan he hp)
    · obtain ⟨n, hn⟩ := List.mem_iff_getElem?.1 hx
      cases x with
      | group schedule spots => exact Option.isSome_iff_ne_none.2 fun hs => h _ (.stepSchedule he hn hs)
      | call plan => exact Option.isSome_iff_ne_none.2 fun hp => h _ (.stepPlan he hn hp)
    · exact Option.isSome_iff_ne_none.2 fun hc => h _ (.curve he h0 hc)
  · rintro ⟨h1, h2, h3, h4, h5⟩ f hf
    cases hf with
    | row he hr => exact absurd (h1 _ he) (Nat.not_le.2 hr)
    | planRange hc h0 hr => exact absurd (h2 _ hc h0).1 (Nat.not_le.2 hr)
    | cellPlan hc h0 hr ho hp => exact Option.isSome_iff_ne_none.1 ((h2 _ hc h0).2 _ ho) hp
    | overlayPlan he hp => exact Option.isSome_iff_ne_none.1 (h3 _ he) hp
    | stepSchedule he hn hs => exact Option.isSome_iff_ne_none.1 (h4 _ he _ (List.mem_of_getElem? hn)) hs
    | stepPlan he hn hp => exact Option.isSome_iff_ne_none.1 (h4 _ he _ (List.mem_of_getElem? hn)) hp
    | curve he h0 hc => exact Option.isSome_iff_ne_none.1 (h5 _ he h0) hc

end
end

section
/-! What every step keeps of tags and tables (R25 to R31, R37, R94): a next tag stays a tag, and the tables of the banks keep every
property that emptying, copying, writing and loading a bank keep. -/

namespace Sys2Proof.Machine

/-! ## Properties of a bank's tables -/

/-- A property of a bank's tables that every write of a bank keeps: emptying it, copying into it, a checked run of records, a
checked block of cells, and the units of a load. -/
structure TablesRule (P : Tables → Prop) : Prop where
  empty : P Tables.empty
  copy : ∀ n {s t}, P s → P t → P (copyTables n s t)
  run : ∀ {t k first fuel os l}, P t → readRecords k fuel os = some l → P (t.putRun k first (passedRecords l))
  block : ∀ {t b form os l}, P t → blockCells b form os = some l → P (t.putBlock b 0 l)
  load : ∀ {flash n x}, P x.2 → P (loadUnits flash n x).2

/-- The canonical form of the tables (R25). -/
theorem TablesRule.wf : TablesRule fun t => t.wf = true where
  empty := Tables.wf_empty
  copy n _ _ hs ht := Tables.wf_copyTables n hs ht
  run h _ := Tables.wf_putRun h _ _ _
  block h _ := Tables.wf_putBlock h _ _ _
  load h := wf_loadUnits h

theorem mem_passedRecords {l : List (Except RecordCheck (Option Record))} {x : Option Record} :
    x ∈ passedRecords l ↔ .ok x ∈ l := by
  unfold passedRecords
  rw [List.mem_filterMap]
  constructor
  · rintro ⟨r, hr, h⟩
    cases r with
    | ok y => cases h; exact hr
    | error c => cases h
  · exact fun h => ⟨_, h, rfl⟩

/-- The entries in the ranges of their tables (R26 to R31, R37). -/
theorem TablesRule.inRange : TablesRule Tables.inRange where
  empty := Tables.inRange_empty
  copy n _ _ hs ht := Tables.inRange_copyTables n hs ht
  run h hl := Tables.inRange_putRun h _ _ _ fun x hx => inRange_of_readRecords hl x (mem_passedRecords.1 hx)
  block h hl := Tables.inRange_putBlock h _ _ _ (inRange_of_blockCells hl)
  load h := inRange_loadUnits h

/-! ## Operations that keep the tags and the tables -/

/-- What an operation keeps of the next tags, and of a property of the tables of both banks. -/
structure Carries (P : Tables → Prop) (s t : State) : Prop where
  tables : (∀ i, P (s.banks.tables i)) → ∀ i, P (t.banks.tables i)
  tags : s.tagsValid → t.tagsValid

/-- The tables of one bank written. -/
theorem Banks.tables_setTables (x : Banks) (i j : BankId) (t : Tables) :
    (x.setTables i t).tables j = if j = i then t else x.tables j := by
  cases i <;> cases j <;> rfl

/-- Every bank keeps a property that the tables written into one of them have. -/
theorem Banks.forall_setTables {P : Tables → Prop} {x : Banks} (h : ∀ i, P (x.tables i)) {t : Tables} (ht : P t)
    (i j : BankId) : P ((x.setTables i t).tables j) := by
  rw [Banks.tables_setTables]
  split
  · exact ht
  · exact h j

namespace Carries

variable {P : Tables → Prop}

theorem refl (s : State) : Carries P s s := ⟨id, id⟩

/-- Two operations one after the other, the later one first. -/
theorem after {s t u : State} (k : Carries P t u) (h : Carries P s t) : Carries P s u :=
  ⟨fun x => k.tables (h.tables x), fun x => k.tags (h.tags x)⟩

/-- A change beside tags and tables. -/
theorem beside {s t : State} (hb : ∀ i, t.banks.tables i = s.banks.tables i) (ht : t.tags = s.tags) : Carries P s t where
  tables h i := by rw [hb]; exact h i
  tags h := by unfold State.tagsValid; rw [ht]; exact h

theorem of_dispatched {s t : State} (d : Dispatched s t) : Carries P s t where
  tables h i := by rw [d.tables]; exact h i
  tags := d.tagsValid

/-- The tables of one bank written, and no tag. -/
theorem of_setTables {s t : State} (i : BankId) {x : Tables} (hx : (∀ i, P (s.banks.tables i)) → P x)
    (hb : ∀ j, t.banks.tables j = (s.banks.setTables i x).tables j) (ht : t.tags = s.tags) : Carries P s t where
  tables h j := by rw [hb]; exact Banks.forall_setTables h (hx h) i j
  tags h := by unfold State.tagsValid; rw [ht]; exact h

theorem testAfterHold {s before released tested : State} (h : Carries P s tested) :
    Carries P s (Machine.testAfterHold before released tested) :=
  after (of_dispatched (.testAfterHold (.refl _))) h

/-- The NOTICE at the end of an event (R171). -/
theorem settleNotice (before after : State) : Carries P after (Machine.settleNotice before after) := by
  rcases settleNotice_cases before after with h | ⟨-, h⟩ <;> rw [h]
  · exact refl after
  · exact beside (fun _ => rfl) rfl

/-! ## Frames and telegrams received (R144 to R150) -/

theorem frameError (s : State) : Carries P s s.frameError := beside (fun _ => rfl) rfl

theorem setLink (s : State) (port : Port) (up : Bool) : Carries P s (s.setLink port up) := by
  cases port <;> exact beside (fun _ => rfl) rfl

theorem forward (s : State) (port : Port) (f : Frame) : Carries P s (s.forward port f) := by
  unfold State.forward
  split <;> split <;> exact beside (fun _ => rfl) rfl

theorem takeRequest (s : State) (source : Node) (number : BitVec 16) (code : Octet) (params : List Octet) :
    Carries P s (s.takeRequest source number code params) := by
  unfold State.takeRequest
  simp only
  split <;> exact beside (fun _ => rfl) rfl

theorem countAt (s : State) (st : StationId) (f : StationCounters → StationCounters) : Carries P s (s.countAt st f) :=
  of_dispatched (.countAt ..)

theorem takeReady (s : State) (g : SlotId) (tag : Tag) (verdict reason program : Octet) :
    Carries P s (s.takeReady g tag verdict reason program) := by
  unfold State.takeReady
  split
  · exact frameError s
  · split
    · exact countAt _ _ _
    · exact countAt _ _ _
    · exact countAt _ _ _
    · split
      · exact countAt _ _ _
      · split
        · exact of_dispatched (.acceptRefused ..)
        · split
          · exact of_dispatched (.acceptLoaded ..)
          · exact of_dispatched (.acceptRefused ..)

theorem takeDone (s : State) (g : SlotId) (tag : Tag) (spots quality dressed : Octet) :
    Carries P s (s.takeDone g tag spots quality dressed) := by
  unfold State.takeDone
  split
  · exact frameError s
  · split
    · exact countAt _ _ _
    · exact countAt _ _ _
    · exact beside (fun _ => rfl) rfl
    · exact of_dispatched (.acceptDone ..)

theorem forRobot (s : State) (source : Node) {take : State → SlotId → State} (h : ∀ g, Carries P s (take s g)) :
    Carries P s (s.forRobot source take) := by
  unfold State.forRobot
  split
  · exact h _
  · exact frameError s

theorem refuse (s : State) (bodyId : BodyId) (station : Octet) (reason : RefusalReason) :
    Carries P s (s.refuse bodyId station reason) := beside (fun _ => rfl) rfl

theorem takeAnnounce (s : State) (source : Node) (bodyId : BodyId) (station origin : Octet) (style options : BitVec 16)
    (variant : Octet) : Carries P s (s.takeAnnounce source bodyId station origin style options variant) := by
  unfold State.takeAnnounce
  split
  · exact frameError s
  · split
    · exact refuse _ _ _ _
    · exact refuse _ _ _ _
    · exact of_dispatched (.accept ..)

theorem withdrawBody (s : State) (bodyId : BodyId) (station : Octet) : Carries P s (s.withdrawBody bodyId station).1 := by
  unfold State.withdrawBody
  split
  · exact refuse _ _ _ _
  · split
    · exact refuse _ _ _ _
    · simp only
      split
      · exact of_dispatched (.withdrawHead ..)
      · exact of_dispatched (.withdrawQueued ..)

theorem takeWithdraw (s : State) (source : Node) (bodyId : BodyId) (station : Octet) :
    Carries P s (s.takeWithdraw source bodyId station) := by
  unfold State.takeWithdraw
  split
  · exact refuse _ _ _ _
  · exact withdrawBody _ _ _

theorem fromSource (s : State) (k : TelegramKind) (port : Port) (source : Node) {take : State → State}
    (h : Carries P s (take s)) : Carries P s (s.fromSource k port source take) := by
  unfold State.fromSource
  split
  · split
    · exact frameError s
    · exact h
  · exact refl s

theorem consume (s : State) (k : TelegramKind) (source : Node) (body : List Octet) : Carries P s (s.consume k source body) := by
  have read : ∀ o : Option State, (∀ t, o = some t → Carries P s t) → Carries P s (o.getD s.frameError) := by
    rintro (_ | t) h
    · exact frameError s
    · exact h t rfl
  unfold State.consume
  refine read _ fun t ht => ?_
  split at ht
  · simp only [State.announceBody, Option.bind_eq_bind, Option.bind_eq_some_iff, Option.some.injEq] at ht
    obtain ⟨_, _, _, _, _, _, _, _, _, _, _, _, rfl⟩ := ht
    exact takeAnnounce ..
  · simp only [State.withdrawTelegramBody, Option.bind_eq_bind, Option.bind_eq_some_iff, Option.some.injEq] at ht
    obtain ⟨_, _, _, _, rfl⟩ := ht
    exact takeWithdraw ..
  · simp only [State.requestBody, Option.bind_eq_bind, Option.bind_eq_some_iff, Option.some.injEq] at ht
    obtain ⟨_, _, _, _, rfl⟩ := ht
    exact takeRequest ..
  · simp only [State.readyBody, Option.bind_eq_bind, Option.bind_eq_some_iff, Option.some.injEq] at ht
    obtain ⟨_, _, _, _, _, _, _, _, rfl⟩ := ht
    exact forRobot _ _ fun g => takeReady ..
  · simp only [State.doneBody, Option.bind_eq_bind, Option.bind_eq_some_iff, Option.some.injEq] at ht
    obtain ⟨_, _, _, _, _, _, _, _, rfl⟩ := ht
    exact forRobot _ _ fun g => takeDone ..
  all_goals cases ht

theorem receiveFrame (s : State) (port : Port) (good : Bool) (f : Frame) : Carries P s (s.receiveFrame port good f) := by
  unfold State.receiveFrame
  split
  · unfold State.sortFrame
    split
    · exact forward _ _ _
    · split
      · exact forward _ _ _
      · split
        · split
          · exact beside (fun _ => rfl) rfl
          · exact forward _ _ _
        · split
          · exact consume _ _ _ _
          · exact frameError s
  · exact refl s

/-! ## Transmissions (R153) -/

theorem selectDeparts (s : State) (g : SlotId) : Carries P s (s.selectDeparts g) := by
  unfold State.selectDeparts
  split
  · exact of_dispatched (.after (.modifyEntry ..) (.setTag _ _ _ id))
  · exact refl s

theorem takeCell (s : State) (t : CellTelegram) : Carries P s (s.takeCell t) := beside (fun _ => rfl) rfl

theorem selectTransmit (s : State) : Carries P s s.selectTransmit := by
  unfold State.selectTransmit
  split
  · split
    · exact after (selectDeparts _ _) (takeCell _ _)
    · exact refl s
  · exact refl s

theorem cancelTransmit (s : State) : Carries P s s.cancelTransmit := by
  unfold State.cancelTransmit
  split
  · split
    · exact takeCell _ _
    · exact refl s
  · exact refl s

theorem forwardTransmit (s : State) (port : Port) : Carries P s (s.forwardTransmit port) := by
  have sent (c : Bool) (p : Ports) : Carries P s (if c then s.setPorts p else s) := by
    cases c
    · exact refl s
    · exact beside (fun _ => rfl) rfl
  cases port with
  | uplink =>
    simp only [State.forwardTransmit]
    split
    · exact sent _ _
    · exact refl s
  | cell =>
    simp only [State.forwardTransmit]
    split
    · exact sent _ _
    · exact refl s

theorem releaseTransmit (s : State) : Carries P s s.releaseTransmit := by
  unfold State.releaseTransmit
  split
  · exact after (of_dispatched (.drainTest _)) (beside (t := s.takeUplink _) (fun _ => rfl) rfl)
  all_goals exact refl s

theorem dropAnswered (s : State) : Carries P s s.dropAnswered := by
  unfold State.dropAnswered
  split
  · split <;> exact beside (fun _ => rfl) rfl
  · exact beside (fun _ => rfl) rfl

/-- A RESTART keeps the next tag of every slot (R121), and the tables of both banks (R50). -/
theorem restart (s : State) : Carries P s s.restart where
  tables h i := match i with | .a => h .a | .b => h .b
  tags h g := by
    have : s.restart.tags[g].next = s.tags[g].next := by simp [State.restart, mapVector, TagState.restarted]
    rw [this]
    exact h g

theorem replyTransmit (s : State) : Carries P s s.replyTransmit := by
  unfold State.replyTransmit
  split
  · have taken : ∀ t, Carries P s (s.takeUplink t).dropAnswered := fun t => after (dropAnswered _) (beside (fun _ => rfl) rfl)
    simp only
    split
    · exact after (restart _) (taken _)
    · exact taken _
  all_goals exact refl s

theorem noticeTransmit (s : State) : Carries P s s.noticeTransmit := by
  unfold State.noticeTransmit
  split
  · exact beside (fun _ => rfl) rfl
  all_goals exact refl s

theorem copyTransmit (s : State) : Carries P s s.copyTransmit := by
  unfold State.copyTransmit
  split
  · exact beside (fun _ => rfl) rfl
  all_goals exact refl s

/-! ## Power-up, loads and long operations (R42 to R47, R185 to R187) -/

theorem powerUp (hP : TablesRule P) (s : State) : Carries P s s.powerUp where
  tables _ i := by cases i <;> exact hP.empty
  tags _ g := by
    have next : (State.reset.tagState g).next ≠ 0 := by
      rw [State.reset_tagState]
      decide
    exact next

theorem advanceLoad (hP : TablesRule P) (s : State) (n : Nat) : Carries P s (s.advanceLoad n) :=
  of_setTables s.loadTarget (fun h => hP.load (h _)) (fun _ => rfl) rfl

theorem finishLoad (hP : TablesRule P) (s : State) (answers : Bool) : Carries P s (s.finishLoad answers) := by
  unfold State.finishLoad
  split
  · exact advanceLoad hP s _
  · split
    · exact refl s
    · exact beside (fun _ => rfl) rfl

/-- A shape returns the tag state of a slot to its power-up values, or leaves it (R162). -/
theorem applyShape (s : State) (x : Shape) : Carries P s (s.applyShape x) := by
  rw [State.applyShape_eq]
  refine ⟨fun h => h, fun h g => ?_⟩
  have tag : (s.shaped x).tags[g] =
      if (x.nodes[g].isSome && x.nodes[g] == s.robotNode? g) = true then s.tagState g else ⟨1, 0, 0, false, none, none⟩ :=
    Vector.getElem_ofFn _
  rw [tag]
  split
  · exact h g
  · decide

theorem applyConfig (s : State) (c : ImageConfig) (shaped : Bool) : Carries P s (s.applyConfig c shaped) := by
  have settings : ∀ t : State, Carries P t (t.applySettings c shaped) := fun _ => beside (fun _ => rfl) rfl
  unfold State.applyConfig
  split
  · exact after (settings _) (applyShape s _)
  · exact settings s

theorem completeCopy (s : State) : Carries P s s.completeCopy := by
  unfold State.completeCopy
  split
  · exact of_setTables s.banks.active.other (fun h => h _) (fun _ => rfl) rfl
  · exact refl s

theorem endValidation (s : State) : Carries P s s.endValidation := by
  unfold State.endValidation
  split
  · split
    · exact beside (fun _ => rfl) rfl
    · unfold State.switchBanks
      simp only
      split
      · exact beside (fun _ => rfl) rfl
      · exact after (of_dispatched (.testEvery _)) (beside (fun _ => rfl) rfl)
  · exact refl s

theorem setFlag (s : State) (f : EventFlag) : Carries P s (s.setFlag f) := of_dispatched (.setFlag ..)

theorem endImage (s : State) : Carries P s s.endImage := beside (fun _ => rfl) rfl

theorem endStore (s : State) (confirmed : Bool) : Carries P s (s.endStore confirmed) := by
  have written : ∀ f, Carries P s (s.setFlash f) := fun _ => beside (fun _ => rfl) rfl
  have counted : ∀ (u : State) n, Carries P u (u.setFree n) := fun _ _ => beside (fun _ => rfl) rfl
  unfold State.endStore
  split
  · split
    · exact after (endImage _) (after (setFlag _ _) (written _))
    · exact after (endImage _) (after (setFlag _ _) (after (counted _ _) (written _)))
  · exact refl s

theorem applyLoaded (s : State) : Carries P s s.applyLoaded := by
  unfold State.applyLoaded
  split
  · exact testAfterHold (applyConfig _ _ _)
  · exact refl s
  · exact refl s

theorem loadEnds (s : State) : Carries P s s.loadEnds := by
  have marked : ∀ (u : State) mark, Carries P u (u.setLoadIncomplete mark) := fun _ _ => beside (fun _ => rfl) rfl
  unfold State.loadEnds
  split
  · exact after (endImage _) (after (setFlag _ _) (after (marked _ _) (applyLoaded s)))
  · exact after (endImage _) (after (setFlag _ _) (marked s _))

theorem endLoad (hP : TablesRule P) (s : State) (answers : Bool) : Carries P s (s.endLoad answers) := by
  unfold State.endLoad
  split
  · exact after (loadEnds _) (finishLoad hP s answers)
  · exact refl s

theorem powerUpFails (hP : TablesRule P) (s : State) (report : ValidationReport) :
    Carries P s (s.powerUpFails report) := of_setTables .a (fun _ => hP.empty) (fun _ => rfl) rfl

theorem powerUpPasses (s : State) (report : ValidationReport) : Carries P s (s.powerUpPasses report) := by
  have marked : Carries P s (s.setBanks { s.banks with validated := true, report := report }) := beside (fun _ => rfl) rfl
  unfold State.powerUpPasses
  simp only
  split
  · exact after (setFlag _ _) (after (applyConfig _ _ _) marked)
  · exact after (setFlag _ _) marked

theorem powerUpEnds (hP : TablesRule P) (s : State) : Carries P s s.powerUpEnds := by
  unfold State.powerUpEnds
  split
  · split
    · exact powerUpPasses _ _
    · exact powerUpFails hP _ _
  · exact powerUpFails hP _ _

theorem endPowerUpLoad (hP : TablesRule P) (s : State) (answers : Bool) : Carries P s (s.endPowerUpLoad answers) := by
  have idled : ∀ u : State, Carries P u (u.setLoader (Loader.start .idle)) := fun _ => beside (fun _ => rfl) rfl
  unfold State.endPowerUpLoad
  split
  · exact after (idled _) (after (powerUpEnds hP _) (finishLoad hP s answers))
  · exact refl s

/-! ## A millisecond (R42, R182) -/

theorem advanceCopy (hP : TablesRule P) (s : State) (n : Nat) : Carries P s (s.advanceCopy n) := by
  unfold State.advanceCopy
  split
  · exact refl s
  · exact of_setTables s.banks.active.other (fun h => hP.copy _ (h _) (h _)) (fun _ => rfl) rfl

theorem tick (hP : TablesRule P) (s : State) : Carries P s (Machine.tick s) := by
  have timed : Carries P s (s.setLineTime (s.lineTime + 1)) := beside (fun _ => rfl) rfl
  have counted : ∀ t : State, Carries P t (t.setFree (s.free + 1)) := fun _ => beside (fun _ => rfl) rfl
  unfold Machine.tick
  simp only
  split
  · exact after (counted _) (after (advanceCopy hP _ _) timed)
  · split
    · exact timed
    · exact after (counted _) (after (advanceLoad hP _ _) timed)
    · exact after (counted _) (after (advanceLoad hP _ _) timed)
    · have written : ∀ u : State, Carries P u (u.advanceStore (Config.opPace s.free)) := fun _ => beside (fun _ => rfl) rfl
      exact after (counted _) (after (written _) timed)

/-! ## Requests (R157, R158) -/

theorem setTables (s : State) (i : BankId) {x : Tables} (hx : (∀ i, P (s.banks.tables i)) → P x) :
    Carries P s (s.setTables i x) := of_setTables i hx (fun _ => rfl) rfl

theorem writeTable (hP : TablesRule P) (s : State) (bank table : Octet) (first count : BitVec 16) (records : List Octet) :
    Carries P s (s.answerWriteTable bank table first count records).state := by
  unfold State.answerWriteTable
  split
  · split
    · next hl =>
      split
      · unfold State.writeRun
        split
        · exact refl s
        · split
          · exact refl s
          · exact setTables s _ fun h => hP.run (h _) hl
      · exact refl s
    · exact refl s
  · exact refl s

theorem writeBlock (hP : TablesRule P) (s : State) (bank r1 r2 c1 c2 form : Octet) (cells : List Octet) :
    Carries P s (s.answerWriteBlock bank r1 r2 c1 c2 form cells).state := by
  unfold State.answerWriteBlock
  simp only
  split
  · next hl =>
    split
    · unfold State.writeBlock
      split
      · exact refl s
      · split
        · exact refl s
        · exact setTables s _ fun h => hP.block (h _) hl
    · exact refl s
  · exact refl s

theorem clearBank (hP : TablesRule P) (s : State) (bank : Octet) : Carries P s (s.answerClearBank bank).state := by
  unfold State.answerClearBank
  split
  · exact refl s
  · next i _ =>
    split
    · exact refl s
    · exact of_setTables i (fun _ => hP.empty) (fun _ => rfl) rfl

theorem copyBank (s : State) : Carries P s s.answerCopyBank.state := by
  unfold State.answerCopyBank
  split <;> exact beside (fun _ => rfl) rfl

theorem swap (s : State) : Carries P s s.answerSwap.state := by
  unfold State.answerSwap
  split
  · exact refl s
  · split <;> exact beside (fun _ => rfl) rfl

theorem loadImage (hP : TablesRule P) (s : State) : Carries P s s.answerLoadImage.state := by
  unfold State.answerLoadImage
  split
  · exact refl s
  · exact of_setTables s.banks.active.other (fun _ => hP.empty) (fun _ => rfl) rfl

theorem storeImage (s : State) : Carries P s s.answerStoreImage.state := by
  unfold State.answerStoreImage
  split <;> exact beside (fun _ => rfl) rfl

theorem setStation (s : State) (station mode dry : Octet) (limit : BitVec 16) :
    Carries P s (s.answerSetStation station mode dry limit).state := by
  have moved : ∀ st m d n, Carries P s (s.setStationMode st m d n) := fun st m d n => by
    unfold State.setStationMode State.testIfIdled
    split
    · exact after (of_dispatched (.testStation ..)) (beside (fun _ => rfl) rfl)
    · exact beside (fun _ => rfl) rfl
  unfold State.answerSetStation
  split
  · split
    · exact refl s
    · simp only
      split <;> exact moved _ _ _ _
  · exact refl s

theorem setFaultModes (s : State) (station : Octet) (pairs : List (Octet × Octet)) :
    Carries P s (s.answerSetFaultModes station pairs).state := by
  unfold State.answerSetFaultModes
  split
  · split <;> exact beside (fun _ => rfl) rfl
  · exact refl s

theorem setHoldScope (s : State) (scope : Octet) : Carries P s (s.answerSetHoldScope scope).state := by
  unfold State.answerSetHoldScope
  split
  · exact refl s
  · exact testAfterHold (beside (fun _ => rfl) rfl)

theorem clearStation (s : State) (station option : Octet) :
    Carries P s (s.answerClearStation station option).state := by
  unfold State.answerClearStation
  split
  · split
    · exact of_dispatched (.clearStation ..)
    · exact refl s
  · exact refl s

theorem onGun (s : State) (slot : Octet) {op : SlotId → Answer} (h : ∀ g, Carries P s (op g).state) :
    Carries P s (s.onGun slot op).state := by
  unfold State.onGun
  split
  · exact refl s
  · split
    · exact refl s
    · exact h _

theorem setGun (s : State) (slot : Octet) (dress hard ceiling : BitVec 16) :
    Carries P s (s.answerSetGun slot dress hard ceiling).state := onGun s slot fun g => by
  simp only
  split <;> exact beside (fun _ => rfl) rfl

theorem clearEvents (s : State) (mask : BitVec 32) : Carries P s (s.answerClearEvents mask).state := by
  unfold State.answerClearEvents
  split <;> exact beside (fun _ => rfl) rfl

theorem setEventEnable (s : State) (enables : BitVec 32) : Carries P s (s.answerSetEventEnable enables).state := by
  unfold State.answerSetEventEnable
  split <;> exact beside (fun _ => rfl) rfl

theorem setMirror (s : State) (channel option trigger mask : Octet) (destination : Node) (form count : Octet) :
    Carries P s (s.answerSetMirror channel option trigger mask destination form count).state := by
  unfold State.answerSetMirror
  split
  · exact beside (fun _ => rfl) rfl
  · split
    · simp only
      split <;> exact beside (fun _ => rfl) rfl
    · exact refl s
  · exact refl s

theorem configure (s : State) (x : Shape) : Carries P s (s.answerConfigure x).state := by
  unfold State.answerConfigure
  split
  · exact refl s
  · exact applyShape s x

theorem goLive (s : State) : Carries P s s.answerGoLive.state := by
  unfold State.answerGoLive
  split
  · exact refl s
  · split <;> exact beside (fun _ => rfl) rfl

theorem readCounters (s : State) (clear : Octet) : Carries P s (s.answerReadCounters clear).state := by
  unfold State.answerReadCounters
  split
  · exact refl s
  · split <;> exact beside (fun _ => rfl) rfl

theorem readBody (s : State) (station position : Octet) : Carries P s (s.answerReadBody station position).state := by
  unfold State.answerReadBody
  split
  · exact refl s
  · split
    · exact refl s
    · split <;> exact refl s

theorem readTable (s : State) (bank table : Octet) (first count : BitVec 16) :
    Carries P s (s.answerReadTable bank table first count).state := by
  unfold State.answerReadTable
  split
  · split <;> exact refl s
  · exact refl s

theorem readGun (s : State) (first count : Octet) : Carries P s (s.answerReadGun first count).state := by
  unfold State.answerReadGun
  split <;> exact refl s

/-- Every request keeps the tags and the tables. -/
theorem answer (hP : TablesRule P) (s : State) (i : Instr) : Carries P s (s.answer i).state := by
  cases i with
  | readBody station position => exact readBody ..
  | readTable bank table first count => exact readTable ..
  | readGun first count => exact readGun ..
  | readCounters clear => exact readCounters ..
  | writeTable bank table first count records => exact writeTable hP ..
  | writeBlock bank r1 r2 c1 c2 form cells => exact writeBlock hP ..
  | clearBank bank => exact clearBank hP ..
  | copyBank => exact copyBank s
  | swap => exact swap s
  | setStation station mode dry limit => exact setStation ..
  | setFaultModes station pairs => exact setFaultModes ..
  | setHoldScope scope => exact setHoldScope ..
  | clearStation station option => exact clearStation ..
  | withdrawBody bodyId station => exact withdrawBody ..
  | setGun slot dress hard ceiling => exact setGun ..
  | setWear slot wear => exact onGun s slot fun _ => beside (fun _ => rfl) rfl
  | resetWear slot => exact onGun s slot fun _ => beside (fun _ => rfl) rfl
  | clearEvents mask => exact clearEvents ..
  | setEventEnable enables => exact setEventEnable ..
  | setMirror channel option trigger mask destination form count => exact setMirror ..
  | configure protocolType own controller tracker stationCount slotCounts robotNodes => exact configure ..
  | goLive => exact goLive s
  | storeImage => exact storeImage s
  | loadImage => exact loadImage hP s
  | _ => exact refl s

theorem replied (s : State) (e : RequestEntry) (r : ResultCode) (data : List Octet) :
    Carries P s (s.replied e r data) := beside (fun _ => rfl) rfl

theorem runRequest (hP : TablesRule P) (s : State) (i : Instr) : Carries P s (s.runRequest i (·.answer i)) := by
  unfold State.runRequest
  split
  · split
    · exact after (replied _ _ _ _) (answer hP s i)
    · exact refl s
  · exact refl s

/-! ## Every command -/

/-- The effect of every command keeps the tags and the tables. -/
theorem effect (hP : TablesRule P) (i : Instr) (s : State) : Carries P s (Machine.effect i s) := by
  cases i with
  | powerUpReset => exact powerUp hP s
  | powerUpLoadEnd answers => exact endPowerUpLoad hP s answers
  | linkUp port => exact setLink s port true
  | linkDown port => exact setLink s port false
  | frameReceive port good frame => exact receiveFrame s port good frame
  | announce source bodyId station origin style options variant =>
    exact fromSource _ _ _ _ (take := (·.takeAnnounce ..)) (takeAnnounce ..)
  | withdraw source bodyId station => exact fromSource _ _ _ _ (take := (·.takeWithdraw ..)) (takeWithdraw ..)
  | request source number code params => exact fromSource _ _ _ _ (take := (·.takeRequest ..)) (takeRequest ..)
  | ready source tag verdict reason program =>
    exact fromSource _ _ _ _ (take := fun s => s.forRobot ..) (forRobot _ _ fun g => takeReady ..)
  | done source tag spots quality dressed =>
    exact fromSource _ _ _ _ (take := fun s => s.forRobot ..) (forRobot _ _ fun g => takeDone ..)
  | readyTimeout slot => exact of_dispatched (.readyExpires ..)
  | cycleTimeout slot => exact of_dispatched (.cycleExpires ..)
  | selectTransmit => exact selectTransmit s
  | cancelTransmit => exact cancelTransmit s
  | releaseTransmit => exact releaseTransmit s
  | replyTransmit => exact replyTransmit s
  | noticeTransmit => exact noticeTransmit s
  | copyTransmit => exact copyTransmit s
  | forwardTransmit port => exact forwardTransmit s port
  | copyBankComplete => exact completeCopy s
  | validationEnd => exact endValidation s
  | storeImageEnd confirmed => exact endStore s confirmed
  | loadImageEnd answers => exact endLoad hP s answers
  | _ =>
    rw [effect_request rfl]
    exact runRequest hP s _

end Carries

/-- Every step keeps the tags, and every property of the tables that the writes of a bank keep. -/
theorem carries_of_step {P : Tables → Prop} (hP : TablesRule P) {s t : State} (h : step s = .next t) : Carries P s t := by
  rcases step_cases h with ⟨-, rfl⟩ | ⟨c, rest, -, rfl⟩
  · exact Carries.tick hP s
  · have taken : Carries P s (s.withPending rest) := .beside (fun _ => rfl) rfl
    exact .after (Carries.settleNotice _ _) (.after (Carries.effect hP c _) taken)

/-- A property of the tables of both banks, kept by every step. -/
theorem TablesRule.step {P : Tables → Prop} (hP : TablesRule P) {s t : State}
    (hs : P s.banks.tablesA ∧ P s.banks.tablesB) (h : step s = .next t) : P t.banks.tablesA ∧ P t.banks.tablesB := by
  have kept := (carries_of_step hP h).tables fun i => match i with | .a => hs.1 | .b => hs.2
  exact ⟨kept .a, kept .b⟩

end Sys2Proof.Machine

section

open Sys2Proof Sys2Proof.Machine

/-- Settles O6: both properties of the tables are kept by every way to write a bank (`TablesRule`). -/
theorem everyStepKeepsTablesCanonical : Obligations.EveryStepKeepsTablesCanonical :=
  ⟨fun _ _ hs h => TablesRule.wf.step hs h, fun _ _ hs h => TablesRule.inRange.step hs h⟩

/-- Settles O10: next tags by what every command carries on, bank tags by what every command keeps of the queues (`Keeps`). -/
theorem everyStepKeepsTagsValid : Obligations.EveryStepKeepsTagsValid := fun _ _ h =>
  ⟨(carries_of_step TablesRule.wf h).tags, (sustains_of_step h).keeps.banks⟩

end
end

section
/-! One millisecond on an empty queue (R42, R182, R183, R186): what it makes of a running copy, load or store. -/

namespace Sys2Proof.Machine

theorem State.running_of_longOp {s : State} {op : LongOp} (h : s.agent.longOp = some op) (k : LongOpKind) :
    s.running k = (op.kind == k) := by
  unfold State.running
  rw [h]

/-- A millisecond in which a COPY BANK runs. -/
theorem tick_of_copy {s : State} {op : LongOp} (ho : s.agent.longOp = some op) (hk : op.kind = .copyBank) :
    let n := min (op.copied + Config.opPace s.free) copyTotal
    tick s = { s with
      lineTime := s.lineTime + 1
      free := s.free + 1
      agent := { s.agent with longOp := some { op with copied := n } }
      banks := s.banks.setTables s.banks.active.other
        (copyTables n (s.banks.tables s.banks.active) (s.banks.tables s.banks.active.other)) } := by
  have hr : s.running .copyBank = true := by simp [State.running_of_longOp ho, hk]
  simp only [tick, hr, if_true, State.advanceCopy, State.setLineTime_agent, ho]
  rfl

/-- A millisecond in which a load runs, and no copy. -/
theorem tick_of_load {s : State} (hr : s.running .copyBank = false)
    (ha : s.loader.activity = .powerUpLoad ∨ s.loader.activity = .load) :
    let x := (loadUnit s.flash)^[Config.opPace s.free] (s.loader, s.banks.tables s.loadTarget)
    tick s = { s with
      lineTime := s.lineTime + 1
      free := s.free + 1
      loader := x.1
      banks := s.banks.setTables s.loadTarget x.2 } := by
  rw [← loadUnits_eq_iterate]
  rcases ha with ha | ha <;> simp only [tick, hr, ha] <;> rfl

/-- Some units of a load leave its activity. -/
theorem activity_iterate_loadUnit (flash : List Octet) (n : Nat) (x : Loader × Tables) :
    ((loadUnit flash)^[n] x).1.activity = x.1.activity := by
  induction n generalizing x with
  | zero => rfl
  | succ n ih => rw [Function.iterate_succ_apply, ih, activity_loadUnit]

/-- A millisecond in which a store runs, and no copy. -/
theorem tick_of_store {s : State} (hr : s.running .copyBank = false) (ha : s.loader.activity = .store) :
    let n := min (s.loader.position + Config.opPace s.free) s.loader.stored.length
    tick s = { s with
      lineTime := s.lineTime + 1
      free := s.free + 1
      loader := { s.loader with
        position := n
        sum := BitVec.ofNat 16 ((((s.loader.stored.take n).drop 23).map BitVec.toNat).sum) }
      flash := storeWritten s.loader.stored n } := by
  have h : tick s = ((s.setLineTime (s.lineTime + 1)).advanceStore (Config.opPace s.free)).setFree (s.free + 1) := by
    simp only [tick, hr, ha] <;> rfl
  intro n
  rw [h, List.drop_take]
  rfl

/-- A millisecond in which nothing runs. -/
theorem tick_of_idle {s : State} (hr : s.running .copyBank = false) (ha : s.loader.activity = .idle) :
    tick s = { s with lineTime := s.lineTime + 1 } := by
  simp only [tick, hr, ha] <;> rfl

/-- A step on an empty queue is a millisecond. -/
theorem step_of_empty {s t : State} (hp : s.pending = []) (h : tick s = t) : step s = .next t := by
  rw [step, hp, ← h]

end Sys2Proof.Machine

section

open Sys2Proof Sys2Proof.Machine

/-- Settles O2: the millisecond's branches are the activities, and each activity is carried on by the pace that is open. -/
theorem emptyQueueIsOneMillisecond : Obligations.EmptyQueueIsOneMillisecond := by
  intro s hp target offset
  refine ⟨fun hr ha => step_of_empty hp (tick_of_idle hr ha), fun op ho hk => ?_, fun hr ha => ?_, fun hr ha => ?_⟩
  · exact ⟨_, _, min_le_min_right _ (Nat.le_add_right _ _), Nat.min_le_right _ _, step_of_empty hp (tick_of_copy ho hk),
      fun k i hi => record?_copyTables _ _ _ hi, fun k i => record?_copyTables_cases _ _ _ k i⟩
  · exact ⟨_, _, _, rfl, activity_iterate_loadUnit _ _ _, step_of_empty hp (tick_of_load hr ha)⟩
  · exact ⟨_, _, min_le_min_right _ (Nat.le_add_right _ _), Nat.min_le_right _ _, step_of_empty hp (tick_of_store hr ha),
      fun i => getD_storeWritten _ _ i (Nat.min_le_right _ _)⟩

end
end

section
/-! How the power-up load ends (R49, R184, R185): the load leaves all but the Image Loader and Bank A, a failure empties Bank A, and a
load that passes applies the image's configuration. -/

namespace Sys2Proof.Machine

/-- What the rest of a power-up load writes: the Image Loader and Bank A. -/
theorem State.finishLoad_of_powerUp {s : State} (ha : s.loader.activity = .powerUpLoad) (answers : Bool) :
    ∃ l b, s.finishLoad answers = { s with loader := l, banks := s.banks.setTables .a b } := by
  have target : s.loadTarget = .a := if_pos ha
  unfold State.finishLoad State.advanceLoad
  rw [target]
  split
  · exact ⟨_, _, rfl⟩
  · split
    · exact ⟨s.loader, s.banks.tablesA, rfl⟩
    · exact ⟨s.loader.fail, s.banks.tablesA, rfl⟩

/-- The configuration part applied in full, with the banks and the Image Loader written and the flag set behind it. -/
theorem State.applyConfig_written (s : State) (l m : Loader) (x : Banks) (c : ImageConfig) (f : EventFlag) :
    ((State.applyConfig { s with loader := l, banks := x } c true).setFlag f).setLoader m =
      { (s.shaped c.shape).adjusted c true with
        banks := x, loader := m, events := { s.events with flags := s.events.flags ||| (1#29 <<< f.index) } } := by
  unfold State.applyConfig
  rw [if_pos rfl, State.applyShape_eq, State.applySettings_eq]
  rfl

/-- The end of a power-up load whose banks are as they were but for Bank A. -/
theorem State.powerUpEnds_keeps (s : State) : s.powerUpEnds.banks.active = s.banks.active ∧
    s.powerUpEnds.banks.tablesB = s.banks.tablesB := by
  unfold State.powerUpEnds
  split
  · split
    · unfold State.powerUpPasses
      simp only
      split
      · next c _ =>
        unfold State.applyConfig
        rw [if_pos rfl, State.applyShape_eq, State.applySettings_eq]
        exact ⟨rfl, rfl⟩
      · exact ⟨rfl, rfl⟩
    · exact ⟨rfl, rfl⟩
  · exact ⟨rfl, rfl⟩

theorem exec_powerUpLoadEnd {s : State} (ha : s.loader.activity = .powerUpLoad) (answers : Bool) :
    exec (.powerUpLoadEnd answers) s =
      .next (settleNotice s ((s.finishLoad answers).powerUpEnds.setLoader (Loader.start .idle))) := by
  rw [exec_eq, effect, State.endPowerUpLoad, if_pos ha]

theorem settleNotice_loader (before after : State) : (settleNotice before after).loader = after.loader := by
  rcases settleNotice_cases before after with h | ⟨-, h⟩ <;> rw [h]
  rfl

theorem settleNotice_banks (before after : State) : (settleNotice before after).banks = after.banks := by
  rcases settleNotice_cases before after with h | ⟨-, h⟩ <;> rw [h]
  rfl

end Sys2Proof.Machine

section

open Sys2Proof Sys2Proof.Machine

/-- Settles O13: the load read to its end, by its phase and by what the validation of Bank A finds. -/
theorem powerUpLoadEndsInOneOfThreeWays : Obligations.PowerUpLoadEndsInOneOfThreeWays := by
  intro s answers ha u ended failed
  obtain ⟨l, b, hu⟩ : ∃ l b, u = { s with loader := l, banks := s.banks.setTables .a b } :=
    State.finishLoad_of_powerUp ha answers
  have fails : ∀ report, (u.powerUpFails report).setLoader (Loader.start .idle) = { s with
      banks := { s.banks with tablesA := ⟨[], [], [], [], [], []⟩, validated := false, report := report }
      loader := Loader.start .idle
      events := { s.events with flags := s.events.flags ||| (1#29 <<< 13) } } := fun report => by
    rw [hu]
    rfl
  have ends : exec (.powerUpLoadEnd answers) s =
      .next (settleNotice s (u.powerUpEnds.setLoader (Loader.start .idle))) := exec_powerUpLoadEnd ha answers
  refine ⟨⟨_, ends, ?_⟩, fun hp => ?_, fun hp => ⟨fun f hf => ?_, fun c hf hc => ?_⟩⟩
  · obtain ⟨h1, h2⟩ := u.powerUpEnds_keeps
    rw [settleNotice_loader, settleNotice_banks]
    refine ⟨rfl, h1.trans ?_, h2.trans ?_⟩ <;> rw [hu] <;> rfl
  · rw [ends, State.powerUpEnds, if_neg hp, fails, hu]
    rfl
  · rw [ends, State.powerUpEnds, if_pos hp, hf]
    simp only
    rw [fails, hu]
    rfl
  · rw [ends, State.powerUpEnds, if_pos hp, hf]
    simp only [State.powerUpPasses, hc]
    rw [hu]
    exact congrArg (fun t => Host.Outcome.next (settleNotice s t)) (State.applyConfig_written ..)

end
end

section
/-! CLEAR BANK (R39) and the four long operations (R41, R43, R181, R186, R187): their checks in order, and what an accepted one
leaves. -/

namespace Sys2Proof.Machine

/-! ## The checks on the bank of a write (R36, R38, R39) -/

/-- Not SHADOW comes before a copy or load running into the bank. -/
theorem State.writeRefusal_eq (s : State) (i : BankId) : s.writeRefusal i =
    if s.banks.active = i ∨ s.banks.other ≠ .shadow then some .bankBusy
    else if s.running .copyBank = true ∨ s.running .loadImage = true then some .busy
    else none := by
  unfold State.writeRefusal Banks.isShadow State.filling Banks.isActive
  by_cases ha : s.banks.active = i
  · simp [ha]
  · by_cases ho : s.banks.other = .shadow <;> simp [ha, ho]

/-! ## CLEAR BANK (R39) -/

/-- What CLEAR BANK answers, check by check. -/
theorem State.answerClearBank_eq (s : State) {bank : Octet} {i : BankId} (h : bankOf? bank = some i) :
    s.answerClearBank bank =
      if s.banks.active = i ∨ s.banks.other ≠ .shadow then s.result .bankBusy
      else if s.running .copyBank = true ∨ s.running .loadImage = true then s.result .busy
      else (s.setBanks { s.banks.setTables i Tables.empty with loadIncomplete := false }).result .done := by
  rw [State.answerClearBank, h]
  simp only [State.writeRefusal_eq]
  split_ifs <;> rfl

/-! ## COPY BANK, SWAP and LOAD IMAGE (R41, R43, R187) -/

/-- The slot held comes before the other bank not SHADOW. -/
theorem State.fillRefusal_eq (s : State) : s.fillRefusal =
    if s.agent.longOp.isSome then some .busy else if s.banks.other ≠ .shadow then some .bankBusy else none := rfl

/-- A request that begins with the checks of `fillRefusal`, and leaves a given state where they pass. -/
theorem event_of_fillRefusal {s t : State} {i : Instr} {e : RequestEntry} {op : State → Answer} (h : s.executes i e)
    (refused : ∀ r, s.fillRefusal = some r → op s = s.result r)
    (passed : s.fillRefusal = none → event (·.runRequest i op) s = .next t) :
    event (·.runRequest i op) s = .next (
      if s.agent.longOp.isSome then s.replied e .busy []
      else if s.banks.other ≠ .shadow then s.replied e .bankBusy []
      else t) := by
  have hf := s.fillRefusal_eq
  split
  · next hl => exact event_of_executes_refused h (refused _ (hf.trans (if_pos hl)))
  · next hl =>
    rw [if_neg hl] at hf
    split
    · next ho => exact event_of_executes_refused h (refused _ (hf.trans (if_pos ho)))
    · next ho => exact passed (hf.trans (if_neg ho))

/-! ## STORE IMAGE (R181, R186) -/

/-- The Image Loader at the start of a store whose payload is given (R181). -/
theorem State.storeLoader_eq {s : State} {config payload : List Octet} (hc : s.configOctets = config)
    (hp : s.imagePayload = payload) :
    let b := s.banks.tables s.banks.active
    s.storeLoader =
      { Loader.start .store with
        header := some
          { recordCounts := #v[b.styles.length, b.matrix.length, b.overlays.length, b.plans.length, b.schedules.length,
              b.curves.length]
            configLength := config.length, payloadLength := payload.length
            checksum := BitVec.ofNat 16 (payload.map BitVec.toNat).sum }
        stored := [0x5C, 0x41, 0x60, 0xA7, 1] ++ Octets.nat2 b.styles.length ++ Octets.nat2 b.matrix.length ++
          Octets.nat2 b.overlays.length ++ Octets.nat2 b.plans.length ++ Octets.nat2 b.schedules.length ++
          Octets.nat2 b.curves.length ++ Octets.nat2 config.length ++ Octets.nat4 payload.length ++ payload } := by
  intro b
  rw [State.storeLoader, headerOctets_eq, State.imageHeader, hc, hp]
  simp only [Tables.recordCounts, Vector.toList_mk, List.flatMap_cons, List.flatMap_nil, List.append_assoc, List.nil_append]
  rfl

end Sys2Proof.Machine

section

open Sys2Proof Sys2Proof.Machine

/-- Settles O42, check by check. -/
theorem clearBankEmptiesTheShadowBank : Obligations.ClearBankEmptiesTheShadowBank := by
  intro s e bank h
  refine ⟨fun hb => event_of_executes_refused h ?_, fun i hb => ?_⟩
  · unfold State.answerClearBank
    rw [hb]
    rfl
  · have ha := s.answerClearBank_eq hb
    split
    · next hc => exact event_of_executes_refused h (ha.trans (if_pos hc))
    · next hc =>
      rw [if_neg hc] at ha
      split
      · next hr => exact event_of_executes_refused h (ha.trans (if_pos hr))
      · next hr => exact event_answer h (ha.trans (if_neg hr)) rfl rfl

/-- Settles O43: the checks by `event_of_fillRefusal`; the octets of a store by the laws of the image. -/
theorem longOperationsTakeTheSlot : Obligations.LongOperationsTakeTheSlot := by
  intro s e taken
  refine ⟨fun h => ?_, fun h => ?_, fun h => ?_, fun h => ?_⟩
  · exact event_of_fillRefusal h (fun r hr => by rw [State.answerCopyBank, hr]) fun hr =>
      event_answer h (by rw [State.answerCopyBank, hr]; rfl) rfl rfl
  · refine event_of_fillRefusal h (fun r hr => by rw [State.answerSwap, hr]) fun hr => ?_
    split
    · next hm => exact event_of_executes_refused h (by rw [State.answerSwap, hr]; exact if_pos hm)
    · next hm => exact event_answer h (by rw [State.answerSwap, hr]; exact if_neg hm) rfl rfl
  · exact event_of_fillRefusal h (fun r hr => by rw [State.answerLoadImage, hr]) fun hr =>
      event_answer h (by rw [State.answerLoadImage, hr]; rfl) rfl rfl
  · intro b stations slots config records
    have hc : s.configOctets = config Config.unconfiguredController := s.configOctets_eq
    have hr : b.records.flatMap imageRecord = records := b.recordOctets_eq
    obtain ⟨hadjust, hsum⟩ := adjustment_spec (config Config.unconfiguredController ++ records)
    refine ⟨Config.unconfiguredController, _, hadjust, hsum, ?_⟩
    split
    · next hl => exact event_of_executes_refused h (if_pos hl)
    · next hl =>
      refine event_answer h ((if_neg hl).trans ?_) rfl rfl
      rw [State.storeLoader_eq hc (by rw [State.imagePayload, hc, hr])]
      rfl

end
end

section
/-! WRITE TABLE (R36, R37): its checks in order, the first record of a run that fails, and the entries a run writes. -/

namespace Sys2Proof.Machine

/-! ## The first item of a list that a test finds, with its place -/

theorem findSome?_zipIdx_eq_some {α β : Type} {f : α × Nat → Option β} {l : List α} {n : Nat} {b : β} :
    (l.zipIdx n).findSome? f = some b ↔
      ∃ p a, l[p]? = some a ∧ f (a, n + p) = some b ∧ ∀ j < p, ∀ a', l[j]? = some a' → f (a', n + j) = none := by
  induction l generalizing n with
  | nil => simp
  | cons x rest ih =>
    have shift : ∀ a p, f (a, n + (p + 1)) = f (a, n + 1 + p) := fun a p => by rw [Nat.add_right_comm, Nat.add_assoc]
    cases hx : f (x, n) with
    | some c =>
      simp only [List.zipIdx_cons, List.findSome?_cons, hx]
      constructor
      · exact fun h => ⟨0, x, rfl, hx.trans h, by simp⟩
      · rintro ⟨p, a, ha, hb, hj⟩
        cases p with
        | zero =>
          obtain rfl : x = a := by simpa using ha
          exact hx.symm.trans hb
        | succ p => cases hx.symm.trans (hj 0 (Nat.succ_pos p) x rfl)
    | none =>
      simp only [List.zipIdx_cons, List.findSome?_cons, hx, ih]
      constructor
      · rintro ⟨p, a, ha, hb, hj⟩
        refine ⟨p + 1, a, ha, (shift a p).trans hb, fun j hjp a' ha' => ?_⟩
        cases j with
        | zero =>
          obtain rfl : x = a' := by simpa using ha'
          exact hx
        | succ j => exact (shift a' j).trans (hj j (Nat.lt_of_succ_lt_succ hjp) a' ha')
      · rintro ⟨p, a, ha, hb, hj⟩
        cases p with
        | zero =>
          obtain rfl : x = a := by simpa using ha
          cases hx.symm.trans hb
        | succ p =>
          exact ⟨p, a, ha, (shift a p).symm.trans hb, fun j hjp a' ha' =>
            (shift a' j).symm.trans (hj (j + 1) (Nat.succ_lt_succ hjp) a' ha')⟩

theorem findSome?_zipIdx_eq_none {α β : Type} {f : α × Nat → Option β} {l : List α} :
    l.zipIdx.findSome? f = none ↔ ∀ p a, l[p]? = some a → f (a, p) = none := by
  rw [List.findSome?_eq_none_iff]
  constructor
  · exact fun h p a ha => h (a, p) (List.mem_zipIdx_iff_getElem?.2 ha)
  · exact fun h x hx => h x.2 x.1 (List.mem_zipIdx_iff_getElem?.1 hx)

/-! ## The first failing record of a run (R37) -/

/-- The check that the record at a place of a run fails, if it fails one. -/
def checkFailed (t : Tables) (first : Nat) (records : List (Except RecordCheck (Option Record)))
    (r : Except RecordCheck (Option Record)) (position : Nat) : Option RecordCheck :=
  match r with
  | .error c => some c
  | .ok (some (.style e)) =>
    if (t.styles.any fun x => x.2.code == e.code && !(decide (first ≤ x.1) && decide (x.1 < first + records.length))) ||
        (records.take position).any fun x => styleCodeOf x == some e.code then some .duplicateCode else none
  | .ok _ => none

theorem firstFailure_eq (t : Tables) (first : Nat) (records : List (Except RecordCheck (Option Record))) :
    firstFailure t first records = records.zipIdx.findSome? fun x =>
      (checkFailed t first records x.1 x.2).map (x.2, ·) := by
  unfold firstFailure
  refine congrArg (records.zipIdx.findSome? ·) (funext fun x => ?_)
  obtain ⟨r, position⟩ := x
  rcases r with c | _ | (e | _ | _ | _ | _ | _) <;> try rfl
  simp only [checkFailed]
  split <;> rfl

theorem styleCodeOf_eq_some {r : Except RecordCheck (Option Record)} {code : BitVec 16} :
    styleCodeOf r = some code ↔ ∃ e, r = .ok (some (.style e)) ∧ e.code = code := by
  rcases r with c | _ | (e | _ | _ | _ | _ | _) <;> simp [styleCodeOf]

/-- A record of a run fails a check as `recordFails` says. -/
theorem checkFailed_eq_some {t : Tables} {first : Nat} {records : List (Except RecordCheck (Option Record))}
    {r : Except RecordCheck (Option Record)} {position : Nat} (hr : records[position]? = some r) {check : RecordCheck} :
    checkFailed t first records r position = some check ↔ recordFails t first records position check := by
  unfold recordFails
  rw [hr]
  rcases r with c | _ | (e | _ | _ | _ | _ | _)
  · simp [checkFailed]
  · simp [checkFailed]
  · have earlier : ((records.take position).any fun x => styleCodeOf x == some e.code) = true ↔
        ∃ j < position, ∃ e', records[j]? = some (.ok (some (.style e'))) ∧ e'.code = e.code := by
      simp only [List.any_eq_true, beq_iff_eq, styleCodeOf_eq_some, List.mem_iff_getElem?, List.getElem?_take]
      constructor
      · rintro ⟨x, ⟨j, hx⟩, e', rfl, he⟩
        split at hx
        · next hj => exact ⟨j, hj, e', hx, he⟩
        · cases hx
      · rintro ⟨j, hj, e', hx, he⟩
        exact ⟨_, ⟨j, (if_pos hj).trans hx⟩, e', rfl, he⟩
    have outside : (t.styles.any fun x =>
        x.2.code == e.code && !(decide (first ≤ x.1) && decide (x.1 < first + records.length))) = true ↔
        ∃ x ∈ t.styles, x.2.code = e.code ∧ (x.1 < first ∨ first + records.length ≤ x.1) := by
      simp only [List.any_eq_true, Bool.and_eq_true, beq_iff_eq, Bool.not_eq_true', Bool.and_eq_false_iff,
        decide_eq_false_iff_not, Nat.not_le, Nat.not_lt]
    simp only [checkFailed]
    split
    · next h =>
      rw [Bool.or_eq_true, outside, earlier] at h
      constructor
      · rintro ⟨⟩
        exact .inr ⟨e, rfl, rfl, h⟩
      · rintro (⟨⟨⟩⟩ | ⟨_, -, rfl, -⟩)
        rfl
    · next h =>
      rw [Bool.or_eq_true, outside, earlier] at h
      constructor
      · rintro ⟨⟩
      · rintro (⟨⟨⟩⟩ | ⟨_, ⟨⟩, -, hf⟩)
        exact absurd hf h
  all_goals simp [checkFailed]

theorem getElem?_of_recordFails {t : Tables} {first : Nat} {records : List (Except RecordCheck (Option Record))}
    {position : Nat} {check : RecordCheck} (h : recordFails t first records position check) :
    ∃ r, records[position]? = some r := by
  rcases h with h | ⟨e, h, -⟩ <;> exact ⟨_, h⟩

/-- A run has no failing record exactly where none of its records fails a check. -/
theorem firstFailure_eq_none {t : Tables} {first : Nat} {records : List (Except RecordCheck (Option Record))} :
    firstFailure t first records = none ↔ ∀ j check, ¬recordFails t first records j check := by
  rw [firstFailure_eq, findSome?_zipIdx_eq_none]
  constructor
  · intro h j check hf
    obtain ⟨r, hr⟩ := getElem?_of_recordFails hf
    have := h j r hr
    rw [(checkFailed_eq_some hr).2 hf] at this
    cases this
  · intro h p r hr
    rw [Option.map_eq_none_iff, Option.eq_none_iff_forall_ne_some]
    exact fun check hc => h p check ((checkFailed_eq_some hr).1 hc)

/-- The failing record that a run is refused for fails its check, and none ahead of it fails one. -/
theorem recordFails_of_firstFailure {t : Tables} {first : Nat} {records : List (Except RecordCheck (Option Record))}
    {position : Nat} {check : RecordCheck} (h : firstFailure t first records = some (position, check)) :
    recordFails t first records position check ∧ ∀ j < position, ∀ c, ¬recordFails t first records j c := by
  rw [firstFailure_eq, findSome?_zipIdx_eq_some] at h
  obtain ⟨p, r, hr, hc, hj⟩ := h
  simp only [Nat.zero_add, Option.map_eq_some_iff, Prod.mk.injEq] at hc
  obtain ⟨c, hc, rfl, rfl⟩ := hc
  refine ⟨(checkFailed_eq_some hr).1 hc, fun j hlt c hf => ?_⟩
  obtain ⟨r', hr'⟩ := getElem?_of_recordFails hf
  have := hj j hlt r' hr'
  rw [Nat.zero_add, (checkFailed_eq_some hr').2 hf] at this
  cases this

/-! ## The checks of WRITE TABLE in their order (R36) -/

/-- A bank or a table that is undefined, or octets that do not make whole records. -/
theorem State.answerWriteTable_of_unread (s : State) {bank table : Octet} (first count : BitVec 16) {octets : List Octet}
    (h : ∀ i k, bankOf? bank = some i → tableOf? table = some k → readRecords k octets.length octets = none) :
    s.answerWriteTable bank table first count octets = s.result .badParameter := by
  unfold State.answerWriteTable
  split
  · next i k hi hk => rw [h i k hi hk]
  · rfl

theorem State.answerWriteTable_of_read (s : State) {bank table : Octet} (first count : BitVec 16) {octets : List Octet}
    {i : BankId} {k : TableId} {records : List (Except RecordCheck (Option Record))} (hi : bankOf? bank = some i)
    (hk : tableOf? table = some k) (hr : readRecords k octets.length octets = some records) :
    s.answerWriteTable bank table first count octets =
      if k.runInRange first.toNat count.toNat = true ∧ records.length = count.toNat then s.writeRun i k first.toNat records
      else s.result .badParameter := by
  unfold State.answerWriteTable
  simp only [hi, hk, hr, Bool.and_eq_true, decide_eq_true_eq]

/-- A run outside the table, or of another number of records. -/
theorem State.answerWriteTable_of_misfit (s : State) {bank table : Octet} {first count : BitVec 16} {octets : List Octet}
    (h : ∀ i k records, bankOf? bank = some i → tableOf? table = some k →
      readRecords k octets.length octets = some records →
      k.runInRange first.toNat count.toNat = false ∨ records.length ≠ count.toNat) :
    s.answerWriteTable bank table first count octets = s.result .badParameter := by
  by_cases hu : ∀ i k, bankOf? bank = some i → tableOf? table = some k → readRecords k octets.length octets = none
  · exact s.answerWriteTable_of_unread first count hu
  · push Not at hu
    obtain ⟨i, k, hi, hk, hr⟩ := hu
    obtain ⟨records, hr⟩ := Option.ne_none_iff_exists'.1 hr
    rw [s.answerWriteTable_of_read first count hi hk hr, if_neg]
    rintro ⟨h1, h2⟩
    rcases h i k records hi hk hr with h | h
    · rw [h] at h1
      cases h1
    · exact h h2

/-- A run of records that make whole ones, as many as named, inside the table. -/
theorem State.answerWriteTable_of_fit (s : State) {bank table : Octet} {first count : BitVec 16} {octets : List Octet}
    {i : BankId} {k : TableId} {records : List (Except RecordCheck (Option Record))} (hi : bankOf? bank = some i)
    (hk : tableOf? table = some k) (hr : readRecords k octets.length octets = some records)
    (hl : records.length = count.toNat) (hrun : k.runInRange first.toNat count.toNat = true) :
    s.answerWriteTable bank table first count octets =
      if s.banks.active = i ∨ s.banks.other ≠ .shadow then s.result .bankBusy
      else if s.running .copyBank = true ∨ s.running .loadImage = true then s.result .busy
      else match firstFailure (s.banks.tables i) first.toNat records with
        | some (position, check) => s.badRecord position check
        | none => (s.setTables i ((s.banks.tables i).putRun k first.toNat (passedRecords records))).result .done := by
  rw [s.answerWriteTable_of_read first count hi hk hr, if_pos ⟨hrun, hl⟩, State.writeRun, State.writeRefusal_eq]
  split_ifs <;> rfl

/-! ## The entries a run writes (R36) -/

/-- A run without a failing record is all of checked records. -/
theorem eq_map_passedRecords {l : List (Except RecordCheck (Option Record))} (h : ∀ c, .error c ∉ l) :
    l = (passedRecords l).map .ok := by
  induction l with
  | nil => rfl
  | cons r rest ih =>
    cases r with
    | error c => exact absurd List.mem_cons_self (h c)
    | ok x => exact congrArg (.ok x :: ·) (ih fun c hc => h c (List.mem_cons_of_mem _ hc))

theorem error_notMem_of_firstFailure {t : Tables} {first : Nat} {records : List (Except RecordCheck (Option Record))}
    (h : firstFailure t first records = none) (c : RecordCheck) : .error c ∉ records := fun hc => by
  obtain ⟨j, hj⟩ := List.mem_iff_getElem?.1 hc
  exact firstFailure_eq_none.1 h j c (.inl hj)

/-- A run leaves every entry outside it. -/
theorem Tables.record?_putRun_outside {t : Tables} {k k' : TableId} {first n : Nat} {l : List (Option Record)}
    (hl : ∀ x, some x ∈ l → x.isOf k = true) (h : k' ≠ k ∨ n < first ∨ first + l.length ≤ n) :
    (t.putRun k first l).record? k' n = t.record? k' n := by
  induction l generalizing t first with
  | nil => rfl
  | cons r rest ih =>
    rw [List.length_cons] at h
    calc (t.putRun k first (r :: rest)).record? k' n
      _ = (t.putRecord k first r).record? k' n := ih (fun x hx => hl x (List.mem_cons_of_mem _ hx)) (h.imp_right (by omega))
      _ = t.record? k' n := Tables.record?_putRecord_ne (fun x hx => hl x (hx ▸ List.mem_cons_self)) (h.imp_right (by omega))

/-- Each record of a run stands in its entry; the empty cell reads as empty. -/
theorem Tables.record?_putRun_inside {t : Tables} {k : TableId} {first j : Nat} {l : List (Option Record)}
    (hl : ∀ x, some x ∈ l → x.isOf k = true) {r : Option Record} (h : l[j]? = some r) :
    (t.putRun k first l).record? k (first + j) = r.bind Record.listed := by
  induction l generalizing t first j with
  | nil => cases h
  | cons r' rest ih =>
    have hrest : ∀ x, some x ∈ rest → x.isOf k = true := fun x hx => hl x (List.mem_cons_of_mem _ hx)
    cases j with
    | zero =>
      obtain rfl : r' = r := by simpa using h
      calc (t.putRun k first (r' :: rest)).record? k (first + 0)
        _ = (t.putRecord k first r').record? k first := Tables.record?_putRun_outside hrest (.inr (.inl (by omega)))
        _ = r'.bind Record.listed := Tables.record?_putRecord_self fun x hx => hl x (hx ▸ List.mem_cons_self)
    | succ j =>
      rw [show first + (j + 1) = first + 1 + j by omega]
      exact ih hrest h

theorem bind_listed (r : Option Record) : r.bind Record.listed = r.filter fun x => x ≠ .cell ⟨0, 1⟩ := by
  cases r with
  | none => rfl
  | some x =>
    rw [Option.bind_some, Record.listed, Option.filter_some]
    by_cases h : x = .cell emptyCell
    · simp [h, emptyCell]
    · rw [if_neg h]
      exact (if_pos (by simpa [emptyCell] using h)).symm

end Sys2Proof.Machine

section

open Sys2Proof Sys2Proof.Machine

/-- Settles O39: the records of the run read back from their entries, and every other entry stands. -/
theorem writeTableWritesItsRun : Obligations.WriteTableWritesItsRun := by
  intro s e bank table first count octets i k records h _ hi hk hr hl hc hlo hhi ha ho hcopy hload hf
  have hrun : k.runInRange first.toNat count.toNat = true := (k.runInRange_iff _ _).2 ⟨hc, hlo, hhi⟩
  have hanswer : s.answerWriteTable bank table first count octets =
      (s.setTables i ((s.banks.tables i).putRun k first.toNat (passedRecords records))).result .done := by
    rw [s.answerWriteTable_of_fit hi hk hr hl hrun, if_neg (by simp [ha, ho]), if_neg (by simp [hcopy, hload]), hf]
  have hmap : records = (passedRecords records).map .ok := eq_map_passedRecords (error_notMem_of_firstFailure hf)
  have hof : ∀ x, some x ∈ passedRecords records → x.isOf k = true := fun x hx =>
    isOf_of_readRecords hr _ (mem_passedRecords.1 hx) x rfl
  have hwritten : (s.setTables i ((s.banks.tables i).putRun k first.toNat (passedRecords records))).banks.tables i =
      (s.banks.tables i).putRun k first.toNat (passedRecords records) := by
    cases i <;> rfl
  refine ⟨_, event_answer h hanswer rfl rfl, rfl, ?_, fun j r hj => ?_, fun k' n hn => ?_⟩
  · rw [hwritten]
    rfl
  · rw [hwritten, ← bind_listed]
    refine Tables.record?_putRun_inside hof ?_
    rw [hmap, List.getElem?_map] at hj
    simpa using hj
  · rw [hwritten]
    refine Tables.record?_putRun_outside hof ?_
    rw [← List.length_map (f := Except.ok (ε := RecordCheck)), ← hmap, hl]
    exact hn

end
end

section
/-! The records of WRITE TABLE octet by octet (R37, R192): which octets make a record of each table, which check of R37 it fails, and
when the octets are too few. -/

namespace Sys2Proof.Machine

open Octets

/-! ## Fields and codes -/

theorem toNat_eq_iff_eq_ofNat {w : Nat} {v : BitVec w} {n : Nat} (h : n < 2 ^ w) : v.toNat = n ↔ v = BitVec.ofNat w n := by
  rw [← BitVec.toNat_inj, BitVec.toNat_ofNat, Nat.mod_eq_of_lt h]

theorem toNat_eq_zero_iff {w : Nat} {v : BitVec w} : v.toNat = 0 ↔ v = 0#w := toNat_eq_iff_eq_ofNat (Nat.two_pow_pos w)

/-- The value of two octets joined. -/
theorem toNat_join (x y : Octet) : (x ++ y).toNat = x.toNat * 256 + y.toNat := by
  rw [BitVec.toNat_append, ← Nat.shiftLeft_add_eq_or_of_lt y.isLt, Nat.shiftLeft_eq]

/-! ## Steps and breakpoints -/

/-- The octets of a step that no row of R29 and R37 allows: an undefined type, a GROUP or a CALL out of range. -/
abbrev stepBad (s : Octet × Octet × Octet) : Prop :=
  1 < s.1.toNat ∨ (s.1 = 0 ∧ (s.2.1 = 0 ∨ 64 < s.2.1.toNat ∨ s.2.2 = 0)) ∨
    (s.1 = 1 ∧ (s.2.1 ++ s.2.2 = 0#16 ∨ 512 < (s.2.1 ++ s.2.2).toNat))

/-- The step that three octets make where they pass. -/
def stepOf (s : Octet × Octet × Octet) : PlanStep :=
  if s.1 = 0 then .group s.2.1.toNat s.2.2.toNat else .call (s.2.1 ++ s.2.2).toNat

theorem checkStep_eq (s : Octet × Octet × Octet) :
    checkStep s.1 s.2.1 s.2.2 = if stepBad s then none else some (stepOf s) := by
  obtain ⟨type, x, y⟩ := s
  unfold checkStep stepBad stepOf
  dsimp only
  by_cases h0 : type = 0
  · subst h0
    simp
  · by_cases h1 : type = 1
    · subst h1
      simp only [← toNat_eq_zero_iff, ← toNat_join]
      simp
    · have h2 : 1 < type.toNat := by
        have e0 : type.toNat ≠ 0 := fun e => h0 (toNat_eq_zero_iff.1 e)
        have e1 : type.toNat ≠ 1 := fun e => h1 ((toNat_eq_iff_eq_ofNat (by decide)).1 e)
        omega
      rw [if_neg h0, if_neg h1, if_pos (.inl h2)]

/-- The steps of a plan pass exactly where each does. -/
theorem mapM_checkStep (steps : List (Octet × Octet × Octet)) :
    (steps.mapM fun x => checkStep x.1 x.2.1 x.2.2) =
      if ∃ s ∈ steps, stepBad s then none else some (steps.map stepOf) := by
  induction steps with
  | nil => rfl
  | cons s rest ih =>
    rw [List.mapM_cons, ih, checkStep_eq]
    by_cases hs : stepBad s
    · have any : ∃ s' ∈ s :: rest, stepBad s' := ⟨s, List.mem_cons_self, hs⟩
      rw [if_pos hs, if_pos any]
      rfl
    · rw [if_neg hs]
      by_cases hr : ∃ s ∈ rest, stepBad s
      · obtain ⟨s', hs', hb⟩ := hr
        rw [if_pos ⟨s', hs', hb⟩, if_pos ⟨s', List.mem_cons_of_mem _ hs', hb⟩]
        rfl
      · rw [if_neg hr, if_neg]
        · rfl
        · rintro ⟨s', hs', hb⟩
          rcases List.mem_cons.1 hs' with rfl | hs'
          · exact hs hb
          · exact hr ⟨s', hs', hb⟩

theorem readSteps_flatMap (steps : List (Octet × Octet × Octet)) (rest : List Octet) :
    readSteps steps.length ((steps.flatMap fun s => [s.1, s.2.1, s.2.2]) ++ rest) = some (steps, rest) := by
  induction steps with
  | nil => rfl
  | cons s steps ih =>
    simp only [List.length_cons, List.flatMap_cons, List.cons_append, List.nil_append, readSteps, ih, Option.map_some]

theorem readPoints_flatMap (points : List (BitVec 16 × BitVec 16)) (rest : List Octet) :
    readPoints points.length ((points.flatMap fun p => be2 p.1 ++ be2 p.2) ++ rest) =
      some (points.map fun p => ⟨p.1.toNat, p.2.toNat⟩, rest) := by
  induction points with
  | nil => rfl
  | cons p points ih =>
    simp only [List.length_cons, List.flatMap_cons, be2, List.cons_append, List.nil_append] at ih ⊢
    simp only [readPoints, ih, Option.map_some, be2_join, List.map_cons]

/-- The breakpoints of a curve stand in the order of R31 exactly where each pair of them does. -/
theorem curveOrdered_iff (l : List Breakpoint) :
    curveOrdered l = true ↔ l.Pairwise fun p q => p.wear < q.wear ∧ p.raise ≤ q.raise := by
  induction l with
  | nil => simp [curveOrdered]
  | cons x rest ih =>
    cases rest with
    | nil => simp [curveOrdered]
    | cons y rest =>
      rw [List.pairwise_cons, ← ih, curveOrdered, Bool.and_eq_true, Bool.and_eq_true, decide_eq_true_eq, decide_eq_true_eq]
      refine ⟨fun ⟨⟨hw, hr⟩, ho⟩ => ⟨fun q hq => ?_, ho⟩, fun ⟨h, ho⟩ => ⟨h y List.mem_cons_self, ho⟩⟩
      rcases List.mem_cons.1 hq with rfl | hq
      · exact ⟨hw, hr⟩
      · obtain ⟨hw', hr'⟩ := (List.pairwise_cons.1 (ih.1 ho)).1 q hq
        exact ⟨hw.trans hw', hr.trans hr'⟩

/-! ## Octets that make a record (R192) -/

theorem readRecord_of_present (k : TableId) (os : List Octet) :
    readRecord k (1 :: os) = (readFields k os).map fun r => (r.1.map some, r.2) := rfl

theorem readRecord_of_readFields {k : TableId} {os rest : List Octet} {r : CheckedRecord} (h : readFields k os = some (r, rest)) :
    readRecord k (1 :: os) = some (r.map some, rest) := by
  rw [readRecord_of_present, h, Option.map_some]

/-- A check that fails or passes, carried into a record of a run. -/
theorem map_some_ite {p q : Prop} [Decidable p] [Decidable q] (h : p ↔ q) (r : RecordCheck) {c : Except RecordCheck Record}
    {d : Except RecordCheck (Option Record)} (hc : c.map some = d) :
    (if p then .error r else c).map some = if q then .error r else d := by
  by_cases hp : p
  · rw [if_pos hp, if_pos (h.1 hp)]
    rfl
  · rw [if_neg hp, if_neg (mt h.2 hp), hc]

/-- A presence octet other than 0 and 1 makes no record (log entry 29). -/
theorem readRecord_of_undefined_presence (k : TableId) {a : Octet} (h : 1 < a.toNat) (rest : List Octet) :
    readRecord k (a :: rest) = none := by
  have h0 : a ≠ 0 := by rintro rfl; exact absurd h (by decide)
  have h1 : a ≠ 1 := by rintro rfl; exact absurd h (by decide)
  simp only [readRecord, if_neg h0, if_neg h1]

theorem readRecord_style (a b c : Octet) (rest : List Octet) : readRecord .styles (1 :: a :: b :: c :: rest) = some (
    if a ++ b = 0#16 ∨ a ++ b = 65535#16 ∨ 63 < c.toNat then .error .range
    else .ok (some (.style ⟨a ++ b, c.toNat⟩)), rest) :=
  (readRecord_of_readFields (r := checkStyle (a ++ b) c.toNat) rfl).trans
    (congrArg (fun r => some (r, rest)) (map_some_ite Iff.rfl _ rfl))

theorem readRecord_cell (a b c : Octet) (rest : List Octet) : readRecord .matrix (1 :: a :: b :: c :: rest) = some (
    if 512 < (a ++ b).toNat ∨ c = 0 ∨ 4 < c.toNat then .error .range
    else .ok (some (.cell ⟨(a ++ b).toNat, c.toNat⟩)), rest) :=
  (readRecord_of_readFields (r := checkCell (a ++ b).toNat c.toNat) rfl).trans
    (congrArg (fun r => some (r, rest)) (map_some_ite (or_congr_right (or_congr_left toNat_eq_zero_iff)) _ rfl))

/-- The fields of an overlay by their codes (R192). -/
theorem overlay_of_codes (a b c d : Octet) (v : BitVec 16) :
    (⟨a.toNat, if b.toNat = 255 then none else some b.toNat, c.toNat, if d.toNat = 0 then .substitute else .append, v.toNat⟩ :
      OverlayEntry) = ⟨a.toNat, if b = 255 then none else some b.toNat, c.toNat, if d = 0 then .substitute else .append,
        v.toNat⟩ := by
  have any : b.toNat = 255 ↔ b = 255 := toNat_eq_iff_eq_ofNat (by decide)
  have zero : d.toNat = 0 ↔ d = 0 := toNat_eq_zero_iff
  simp only [any, zero]

theorem readRecord_overlay (a b c d x y : Octet) (rest : List Octet) :
    readRecord .overlays (1 :: a :: b :: c :: d :: x :: y :: rest) = some (
      if 15 < a.toNat ∨ (63 < b.toNat ∧ b ≠ 255) ∨ 31 < c.toNat ∨ 1 < d.toNat ∨ x ++ y = 0#16 ∨ 512 < (x ++ y).toNat then
        .error .range
      else .ok (some (.overlay ⟨a.toNat, if b = 255 then none else some b.toNat, c.toNat,
        if d = 0 then .substitute else .append, (x ++ y).toNat⟩)), rest) := by
  have any : b.toNat ≠ 255 ↔ b ≠ 255 := not_congr (toNat_eq_iff_eq_ofNat (by decide))
  have zero : (x ++ y).toNat = 0 ↔ x ++ y = 0#16 := toNat_eq_zero_iff
  refine (readRecord_of_readFields (r := checkOverlay a.toNat b.toNat c.toNat d.toNat (x ++ y).toNat) rfl).trans
    (congrArg (fun r => some (r, rest)) (map_some_ite ?_ _ ?_))
  · rw [any, zero]
  · rw [overlay_of_codes]
    rfl

theorem readRecord_plan (a b c d x z : Octet) {steps : List (Octet × Octet × Octet)} (hz : steps.length = z.toNat)
    (rest : List Octet) :
    readRecord .plans (1 :: a :: b :: c :: d :: x :: z :: (steps.flatMap fun s => [s.1, s.2.1, s.2.2]) ++ rest) = some (
      if a = 0 ∨ z = 0 ∨ 12 < z.toNat ∨ ∃ s ∈ steps, stepBad s then .error .range
      else .ok (some (.plan ⟨a.toNat, (b ++ c).toNat, (d ++ x).toNat, steps.map stepOf⟩)), rest) := by
  have h : readFields .plans (a :: b :: c :: d :: x :: z :: ((steps.flatMap fun s => [s.1, s.2.1, s.2.2]) ++ rest)) =
      some (checkPlan a.toNat (b ++ c).toNat (d ++ x).toNat steps, rest) := by
    simp only [readFields, read1, read2, Option.bind_eq_bind, Option.bind_some, ← hz, readSteps_flatMap]
  have ha : a.toNat = 0 ↔ a = 0 := toNat_eq_zero_iff
  have hz' : z.toNat = 0 ↔ z = 0 := toNat_eq_zero_iff
  refine (readRecord_of_readFields h).trans (congrArg (fun r => some (r, rest)) ?_)
  unfold checkPlan
  rw [mapM_checkStep, hz]
  by_cases hs : ∃ s ∈ steps, stepBad s
  · rw [if_pos hs, if_pos (c := a = 0 ∨ _) (.inr (.inr (.inr hs))), ite_self]
    rfl
  · rw [if_neg hs]
    exact map_some_ite (by simp only [ha, hz', hs, or_false]) _ rfl

theorem readRecord_schedule (a b c d x : Octet) (rest : List Octet) :
    readRecord .schedules (1 :: a :: b :: c :: d :: x :: rest) = some (
      if (a ++ b).toNat < 20 ∨ 1800 < (a ++ b).toNat ∨ c ++ d = 0#16 ∨ 999 < (c ++ d).toNat ∨ 16 < x.toNat then
        .error .range
      else .ok (some (.schedule ⟨(a ++ b).toNat, (c ++ d).toNat, x.toNat⟩)), rest) :=
  (readRecord_of_readFields (r := checkSchedule (a ++ b).toNat (c ++ d).toNat x.toNat) rfl).trans
    (congrArg (fun r => some (r, rest))
      (map_some_ite (or_congr_right (or_congr_right (or_congr_left toNat_eq_zero_iff))) _ rfl))

theorem readRecord_curve (z : Octet) {points : List (BitVec 16 × BitVec 16)} (hz : points.length = z.toNat)
    (rest : List Octet) :
    readRecord .curves (1 :: z :: (points.flatMap fun p => be2 p.1 ++ be2 p.2) ++ rest) = some (
      if z.toNat < 2 ∨ 8 < z.toNat ∨ (∃ p ∈ points, 60000 < p.1.toNat ∨ 500 < p.2.toNat) then .error .range
      else if points.Pairwise fun p q => p.1.toNat < q.1.toNat ∧ p.2.toNat ≤ q.2.toNat then
        .ok (some (.curve (points.map fun p => ⟨p.1.toNat, p.2.toNat⟩)))
      else .error .order, rest) := by
  have h : readFields .curves (z :: ((points.flatMap fun p => be2 p.1 ++ be2 p.2) ++ rest)) =
      some (checkCurve (points.map fun p => ⟨p.1.toNat, p.2.toNat⟩), rest) := by
    simp only [readFields, read1, Option.bind_eq_bind, Option.bind_some, ← hz, readPoints_flatMap]
  have order := curveOrdered_iff (points.map fun p => (⟨p.1.toNat, p.2.toNat⟩ : Breakpoint))
  rw [List.pairwise_map] at order
  refine (readRecord_of_readFields h).trans (congrArg (fun r => some (r, rest)) ?_)
  unfold checkCurve
  rw [List.length_map, hz]
  refine map_some_ite (by simp) _ ?_
  by_cases ho : points.Pairwise fun p q => p.1.toNat < q.1.toNat ∧ p.2.toNat ≤ q.2.toNat
  · rw [if_pos ho, if_pos (order.2 ho)]
    rfl
  · rw [if_neg ho, if_neg (mt order.1 ho)]
    rfl

/-! ## Octets that are too few -/

/-- The fewest octets that the fields of a record of a table take (R192). -/
def TableId.leastFields : TableId → Nat
  | .styles | .matrix => 3
  | .overlays | .plans => 6
  | .schedules => 5
  | .curves => 1

/-- The fields of a record that are read stand in as many octets as they take, the steps and breakpoints counted in them too. -/
theorem length_of_readFields_eq_some {k : TableId} {os rest : List Octet} {r : CheckedRecord}
    (h : readFields k os = some (r, rest)) : k.leastFields ≤ os.length ∧
      (k = .plans → ∀ a b c d x z p, os = a :: b :: c :: d :: x :: z :: p → 3 * z.toNat ≤ p.length) ∧
      (k = .curves → ∀ z p, os = z :: p → 4 * z.toNat ≤ p.length) := by
  cases k <;> simp only [readFields, Option.bind_eq_bind, Option.bind_eq_some_iff, Prod.exists, Option.some.injEq,
    Prod.mk.injEq] at h <;> simp only [TableId.leastFields, reduceCtorEq, false_implies, true_implies, and_true, true_and]
  · obtain ⟨_, _, h1, _, _, h2, -⟩ := h
    have := length_read2 h1
    have := length_read1 h2
    omega
  · obtain ⟨_, _, h1, _, _, h2, -⟩ := h
    have := length_read2 h1
    have := length_read1 h2
    omega
  · obtain ⟨_, _, h1, _, _, h2, _, _, h3, _, _, h4, _, _, h5, -⟩ := h
    have := length_read1 h1
    have := length_read1 h2
    have := length_read1 h3
    have := length_read1 h4
    have := length_read2 h5
    omega
  · obtain ⟨_, _, h1, _, _, h2, _, _, h3, count, _, h4, _, _, h5, -⟩ := h
    have := length_read1 h1
    have := length_read2 h2
    have := length_read2 h3
    have := length_read1 h4
    refine ⟨by omega, ?_⟩
    rintro a b c d x z p rfl
    obtain ⟨rfl, rfl⟩ : z = count ∧ p = _ := by
      cases h1
      cases h2
      cases h3
      cases h4
      exact ⟨rfl, rfl⟩
    have := (length_readSteps h5).2
    omega
  · obtain ⟨_, _, h1, _, _, h2, _, _, h3, -⟩ := h
    have := length_read2 h1
    have := length_read2 h2
    have := length_read1 h3
    omega
  · obtain ⟨_, _, h1, _, _, h2, -⟩ := h
    have := length_read1 h1
    refine ⟨by omega, ?_⟩
    rintro z p rfl
    cases h1
    have := (length_readPoints h2).2
    omega

/-- A record whose fields cannot be read is none. -/
theorem readRecord_eq_none_of_fields {k : TableId} {os : List Octet} (h : ∀ r rest, readFields k os ≠ some (r, rest)) :
    readRecord k (1 :: os) = none := by
  rw [readRecord_of_present, Option.map_eq_none_iff, Option.eq_none_iff_forall_ne_some]
  exact fun x => h x.1 x.2

end Sys2Proof.Machine

section

open Sys2Proof Sys2Proof.Machine

/-- Settles O40: the checks by what `answerWriteTable` answers of a run that fits or does not, the failing record by
`recordFails`, and the octets record by record. -/
theorem writeTableIsCheckedInOrder : Obligations.WriteTableIsCheckedInOrder := by
  refine ⟨fun s e bank table first count octets h => ?_, fun t first records => ⟨firstFailure_eq_none, fun position check hf =>
    recordFails_of_firstFailure hf⟩, fun k a b c d x y z rest => ?_⟩
  · have refused : ∀ {r data}, s.answerWriteTable bank table first count octets = ⟨s, r, data⟩ →
        exec (.writeTable bank table first count octets) s = .next (s.replied e r data) := fun ha =>
      event_of_executes_refused (op := (·.answerWriteTable bank table first count octets)) h ha
    refine ⟨fun hu => refused (s.answerWriteTable_of_misfit fun i k records hi hk hr => ?_), fun i k hi hk =>
      ⟨fun hu => refused (s.answerWriteTable_of_misfit fun i' k' records hi' hk' hr => ?_), fun records hr => ⟨fun hl =>
        refused (s.answerWriteTable_of_misfit fun i' k' records' hi' hk' hr' => ?_), fun hl hc hlo hhi => ?_⟩⟩⟩
    · rcases hu with hu | hu | hu
      · rw [hu] at hi
        cases hi
      · rw [hu] at hk
        cases hk
      · subst hu
        exact .inl rfl
    · obtain rfl : k = k' := Option.some.inj (hk.symm.trans hk')
      rcases hu with hu | hu | hu
      · exact .inl (by simp [TableId.runInRange, hu])
      · exact .inl (by simp [TableId.runInRange, hu])
      · rw [hu] at hr
        cases hr
    · obtain rfl : k = k' := Option.some.inj (hk.symm.trans hk')
      obtain rfl : records = records' := Option.some.inj (hr.symm.trans hr')
      exact .inr hl
    · have hn : count.toNat ≠ 0 := fun hn => hc (toNat_eq_zero_iff.1 hn)
      have hrun : k.runInRange first.toNat count.toNat = true := by simp [TableId.runInRange, hn, hlo, hhi]
      have ha := s.answerWriteTable_of_fit hi hk hr hl hrun
      refine ⟨fun hb => refused (ha.trans (if_pos hb)), fun hact ho hb => refused ?_, fun hact ho hcopy hload position check hf =>
        refused ?_⟩
      · exact ha.trans ((if_neg (not_or.2 ⟨hact, not_not.2 ho⟩)).trans (if_pos hb))
      · rw [ha, if_neg (not_or.2 ⟨hact, not_not.2 ho⟩), if_neg (by simp [hcopy, hload]), hf]
        rfl
  · refine ⟨rfl, rfl, fun ha => readRecord_of_undefined_presence k ha rest, readRecord_style .., readRecord_cell ..,
      readRecord_overlay .., fun steps hz => readRecord_plan a b c d x z hz rest, readRecord_schedule ..,
      fun points hz => readRecord_curve z hz rest, fun hl => ?_, fun hl => ?_, fun hl => ?_⟩
    · refine readRecord_eq_none_of_fields fun r p hr => absurd (length_of_readFields_eq_some hr).1 (Nat.not_le.2 ?_)
      cases k <;> exact hl
    · exact readRecord_eq_none_of_fields fun r p hr =>
        absurd ((length_of_readFields_eq_some hr).2.1 rfl _ _ _ _ _ _ _ rfl) (Nat.not_le.2 hl)
    · exact readRecord_eq_none_of_fields fun r p hr =>
        absurd ((length_of_readFields_eq_some hr).2.2 rfl _ _ rfl) (Nat.not_le.2 hl)

end
end

section
/-! WRITE BLOCK (R37, R38): its cells as triples of octets, the rectangle they fill, and its checks in order. -/

namespace Sys2Proof.Machine

open Octets

/-! ## Cells as triples of octets -/

/-- The octets of a list of cells. -/
def cellOctets (cells : List (Octet × Octet × Octet)) : List Octet := cells.flatMap fun x => [x.1, x.2.1, x.2.2]

/-- A triple of octets in the range of a cell (R27, R37). -/
abbrev cellSound (x : Octet × Octet × Octet) : Prop :=
  (x.1 ++ x.2.1).toNat ≤ 512 ∧ 1 ≤ x.2.2.toNat ∧ x.2.2.toNat ≤ 4

/-- The cell that a triple of octets makes. -/
def cellOf (x : Octet × Octet × Octet) : MatrixCell := ⟨(x.1 ++ x.2.1).toNat, x.2.2.toNat⟩

/-- A triple of octets checked. -/
def checkedCell (x : Octet × Octet × Octet) : CheckedRecord := checkCell (x.1 ++ x.2.1).toNat x.2.2.toNat

theorem checkedCell_of_sound {x : Octet × Octet × Octet} (h : cellSound x) : checkedCell x = .ok (.cell (cellOf x)) :=
  if_neg (by omega)

theorem checkedCell_of_not_sound {x : Octet × Octet × Octet} (h : ¬cellSound x) : checkedCell x = .error .range :=
  if_pos (by omega)

theorem readCells_cellOctets (cells : List (Octet × Octet × Octet)) :
    readCells (cellOctets cells) = some (cells.map checkedCell) := by
  induction cells with
  | nil => rfl
  | cons x cells ih =>
    change (readCells (cellOctets cells)).map _ = _
    rw [ih]
    rfl

theorem length_cellOctets (cells : List (Octet × Octet × Octet)) : (cellOctets cells).length = 3 * cells.length := by
  induction cells with
  | nil => rfl
  | cons x cells ih =>
    change (cellOctets cells).length + 3 = 3 * (cells.length + 1)
    omega

/-- Octets that are read as cells are those of a list of cells. -/
theorem eq_cellOctets_of_readCells {os : List Octet} {l : List CheckedRecord} (h : readCells os = some l) :
    ∃ cells, os = cellOctets cells ∧ l = cells.map checkedCell := by
  induction os using readCells.induct generalizing l with
  | case1 =>
    cases h
    exact ⟨[], rfl, rfl⟩
  | case2 a x y rest ih =>
    obtain ⟨l', hl', rfl⟩ := Option.map_eq_some_iff.1 h
    obtain ⟨cells, rfl, rfl⟩ := ih hl'
    exact ⟨(a, x, y) :: cells, rfl, rfl⟩
  | case3 os h1 h2 =>
    rw [readCells] at h
    · cases h
    · exact h1
    · exact h2

/-- A multiple of three octets is those of a list of cells. -/
theorem exists_cellOctets {n : Nat} {os : List Octet} (h : os.length = 3 * n) :
    ∃ cells, cells.length = n ∧ os = cellOctets cells := by
  induction n generalizing os with
  | zero => exact ⟨[], rfl, List.length_eq_zero_iff.1 h⟩
  | succ n ih =>
    match os, h with
    | a :: x :: y :: rest, h =>
      obtain ⟨cells, rfl, rfl⟩ := ih (os := rest) (by simpa [Nat.mul_succ] using h)
      exact ⟨(a, x, y) :: cells, rfl, rfl⟩

/-- The octets at a cell's place are that cell's. -/
theorem take_drop_cellOctets {cells : List (Octet × Octet × Octet)} {j : Nat} {a b span : Octet} :
    ((cellOctets cells).drop (3 * j)).take 3 = [a, b, span] ↔ cells[j]? = some (a, b, span) := by
  induction cells generalizing j with
  | nil => simp [cellOctets]
  | cons x cells ih =>
    cases j with
    | zero =>
      obtain ⟨x1, x2, x3⟩ := x
      simp [cellOctets]
    | succ j => exact ih

/-! ## The cells that a form names (R38) -/

/-- The single value goes into every cell of the rectangle. -/
theorem blockCells_value (b : Block) (a x y : Octet) (rest : List Octet) :
    blockCells b 0 (a :: x :: y :: rest) = some ((List.replicate b.size (a, x, y)).map checkedCell) := by
  rw [List.map_replicate]
  rfl

theorem blockCells_value_of_short (b : Block) {os : List Octet} (h : os.length < 3) : blockCells b 0 os = none := by
  match os, h with
  | [], _ => rfl
  | [_], _ => rfl
  | [_, _], _ => rfl

theorem blockCells_list {b : Block} {cells : List (Octet × Octet × Octet)} (h : cells.length = b.size) :
    blockCells b 1 (cellOctets cells) = some (cells.map checkedCell) := by
  change (readCells (cellOctets cells)).bind _ = _
  rw [readCells_cellOctets, Option.bind_some, List.length_map, if_pos h]

theorem blockCells_list_of_misfit {b : Block} {os : List Octet} (h : os.length ≠ 3 * b.size) : blockCells b 1 os = none := by
  change (readCells os).bind _ = none
  refine Option.bind_eq_none_iff.2 fun l hl => ?_
  obtain ⟨cells, rfl, rfl⟩ := eq_cellOctets_of_readCells hl
  rw [length_cellOctets] at h
  rw [List.length_map, if_neg (by omega)]

/-- An undefined form names no cells (log entry 29). -/
theorem blockCells_of_undefined_form (b : Block) {form : Octet} (h : 1 < form.toNat) (os : List Octet) :
    blockCells b form os = none := by
  unfold blockCells
  split
  · omega
  · omega
  · rfl

theorem Block.size_pos (b : Block) : 0 < b.size := Nat.mul_pos (Nat.succ_pos _) (Nat.succ_pos _)

/-- The octets that a form of WRITE BLOCK and a number of cells do not allow (R38). -/
abbrev cellsUnsound (form : Octet) (octets : List Octet) (size : Nat) : Prop :=
  1 < form.toNat ∨ (form = 0 ∧ octets.length < 3) ∨ (form = 1 ∧ octets.length ≠ 3 * size)

theorem blockCells_of_unsound {b : Block} {form : Octet} {octets : List Octet} (h : cellsUnsound form octets b.size) :
    blockCells b form octets = none := by
  rcases h with h | ⟨rfl, h⟩ | ⟨rfl, h⟩
  · exact blockCells_of_undefined_form b h octets
  · exact blockCells_value_of_short b h
  · exact blockCells_list_of_misfit h

/-- Octets that a form allows name a list of cells, each at its place in them; the single value is the cell at place 0. -/
theorem exists_blockCells {b : Block} {form : Octet} {octets : List Octet} (h : ¬cellsUnsound form octets b.size) :
    ∃ cells : List (Octet × Octet × Octet), blockCells b form octets = some (cells.map checkedCell) ∧
      ∀ j a x span, (form = 0 → j = 0) → (octets.drop (3 * j)).take 3 = [a, x, span] → cells[j]? = some (a, x, span) := by
  obtain ⟨hform, hvalue, hlist⟩ : form.toNat ≤ 1 ∧ ¬(form = 0 ∧ octets.length < 3) ∧
    ¬(form = 1 ∧ octets.length ≠ 3 * b.size) := ⟨by omega, by tauto, by tauto⟩
  have hcases : form = 0 ∨ form = 1 := (Nat.le_one_iff_eq_zero_or_eq_one.1 hform).imp toNat_eq_zero_iff.1
    (toNat_eq_iff_eq_ofNat (by decide)).1
  rcases hcases with rfl | rfl
  · match octets, hvalue with
    | a :: x :: y :: rest, _ =>
      refine ⟨_, blockCells_value .., fun j a' x' span hj hplace => ?_⟩
      obtain rfl := hj rfl
      cases hplace
      exact List.getElem?_replicate_of_lt b.size_pos
    | [], hvalue | [_], hvalue | [_, _], hvalue => exact absurd ⟨rfl, by simp⟩ hvalue
  · have hlength : octets.length = 3 * b.size := by tauto
    obtain ⟨cells, hcells, rfl⟩ := exists_cellOctets hlength
    exact ⟨cells, blockCells_list hcells, fun j a x span _ => take_drop_cellOctets.1⟩

/-! ## The first failing cell (R37) -/

theorem cellFailure_eq_none {cells : List (Octet × Octet × Octet)} (h : ∀ x ∈ cells, cellSound x) :
    cellFailure (cells.map checkedCell) = none := by
  refine findSome?_zipIdx_eq_none.2 fun p r hr => ?_
  obtain ⟨x, hx, rfl⟩ := List.getElem?_map .. ▸ hr |> Option.map_eq_some_iff.1
  simp only [checkedCell_of_sound (h x (List.mem_of_getElem? hx))]

theorem cellFailure_eq_some {cells : List (Octet × Octet × Octet)} {position : Nat} {x : Octet × Octet × Octet}
    (hx : cells[position]? = some x) (bad : ¬cellSound x)
    (before : ∀ j < position, ∃ y, cells[j]? = some y ∧ cellSound y) :
    cellFailure (cells.map checkedCell) = some (position, .range) := by
  refine findSome?_zipIdx_eq_some.2 ⟨position, .error .range, ?_, ?_, fun j hj r hr => ?_⟩
  · rw [List.getElem?_map, hx, Option.map_some, checkedCell_of_not_sound bad]
  · simp only [Nat.zero_add]
  · obtain ⟨y, hy, sound⟩ := before j hj
    rw [List.getElem?_map, hy, Option.map_some, checkedCell_of_sound sound] at hr
    cases hr
    rfl

/-! ## The rectangle -/

theorem Block.inRange_iff (b : Block) : b.inRange = true ↔
    b.firstRow ≤ b.lastRow ∧ b.lastRow ≤ 63 ∧ b.firstColumn ≤ b.lastColumn ∧ b.lastColumn ≤ 31 := by
  simp [Block.inRange, and_assoc]

/-- The row of a position of the list. -/
def Block.rowAt (b : Block) (k : Nat) : Nat := b.firstRow + k / b.width

/-- The column of a position of the list. -/
def Block.columnAt (b : Block) (k : Nat) : Nat := b.firstColumn + k % b.width

theorem Block.index_eq (b : Block) (k : Nat) : b.index k = 32 * b.rowAt k + b.columnAt k := rfl

theorem Block.width_pos (b : Block) : 0 < b.width := Nat.succ_pos _

theorem Block.columnAt_le {b : Block} (h : b.inRange = true) (k : Nat) : b.columnAt k ≤ b.lastColumn := by
  obtain ⟨-, -, hc, -⟩ := b.inRange_iff.1 h
  have := Nat.mod_lt k b.width_pos
  unfold Block.columnAt
  unfold Block.width at this ⊢
  omega

/-- Different positions of the list are different cells. -/
theorem Block.index_injective {b : Block} (h : b.inRange = true) {j k : Nat} (e : b.index j = b.index k) : j = k := by
  have hj := Block.columnAt_le h j
  have hk := Block.columnAt_le h k
  obtain ⟨-, -, -, hc⟩ := b.inRange_iff.1 h
  rw [Block.index_eq, Block.index_eq] at e
  have hrow : j / b.width = k / b.width := by
    have : b.rowAt j = b.rowAt k := by omega
    exact Nat.add_left_cancel this
  have hcolumn : j % b.width = k % b.width := by
    have : b.columnAt j = b.columnAt k := by omega
    exact Nat.add_left_cancel this
  rw [← Nat.div_add_mod j b.width, ← Nat.div_add_mod k b.width, hrow, hcolumn]

/-- The cells of the rectangle are those at the positions of the list. -/
theorem Block.exists_index_iff {b : Block} (h : b.inRange = true) {row column : Nat} (hcolumn : column < 32) :
    (∃ k < b.size, b.index k = 32 * row + column) ↔
      b.firstRow ≤ row ∧ row ≤ b.lastRow ∧ b.firstColumn ≤ column ∧ column ≤ b.lastColumn := by
  obtain ⟨hr, -, hc, hc31⟩ := b.inRange_iff.1 h
  constructor
  · rintro ⟨k, hk, e⟩
    have hle := Block.columnAt_le h k
    have hrow : b.rowAt k = row := by rw [Block.index_eq] at e; omega
    have hcol : b.columnAt k = column := by rw [Block.index_eq] at e; omega
    have hdiv : k / b.width < b.lastRow - b.firstRow + 1 := Nat.div_lt_of_lt_mul (Nat.mul_comm .. ▸ hk)
    unfold Block.rowAt at hrow
    unfold Block.columnAt at hcol hle
    generalize k / b.width = q at hrow hdiv
    omega
  · rintro ⟨h1, h2, h3, h4⟩
    have hlt : column - b.firstColumn < b.width := by unfold Block.width; omega
    refine ⟨b.width * (row - b.firstRow) + (column - b.firstColumn), ?_, ?_⟩
    · calc b.width * (row - b.firstRow) + (column - b.firstColumn)
        _ < b.width * (row - b.firstRow + 1) := by rw [Nat.mul_succ]; omega
        _ ≤ b.width * (b.lastRow - b.firstRow + 1) := Nat.mul_le_mul_left _ (by omega)
        _ = b.size := Nat.mul_comm ..
    · rw [Block.index, Nat.mul_add_div b.width_pos, Nat.mul_add_mod, Nat.div_eq_of_lt hlt, Nat.mod_eq_of_lt hlt]
      omega

/-! ## The cells written -/

theorem Tables.cell_putRecord_self (t : Tables) (i : Nat) (c : MatrixCell) :
    (t.putRecord .matrix i (some (.cell c))).cell i = c := by
  unfold Tables.cell Tables.putRecord listedCell
  rw [tableGet_tablePut_self]
  split
  · next h => exact h.symm
  · rfl

theorem Tables.cell_putRecord_ne (t : Tables) {i n : Nat} (c : MatrixCell) (h : n ≠ i) :
    (t.putRecord .matrix i (some (.cell c))).cell n = t.cell n :=
  congrArg (·.getD emptyCell) (tableGet_tablePut_ne t.matrix _ h)

theorem Tables.putBlock_cons {t : Tables} {b : Block} {n : Nat} {x : Octet × Octet × Octet} (h : cellSound x)
    (cells : List (Octet × Octet × Octet)) : t.putBlock b n ((x :: cells).map checkedCell) =
      (t.putRecord .matrix (b.index n) (some (.cell (cellOf x)))).putBlock b (n + 1) (cells.map checkedCell) := by
  rw [List.map_cons, checkedCell_of_sound h]
  rfl

/-- A block written leaves every cell it does not name. -/
theorem Tables.cell_putBlock_outside {t : Tables} {b : Block} {n i : Nat} {cells : List (Octet × Octet × Octet)}
    (sound : ∀ x ∈ cells, cellSound x) (h : ∀ k < cells.length, b.index (n + k) ≠ i) :
    (t.putBlock b n (cells.map checkedCell)).cell i = t.cell i := by
  induction cells generalizing t n with
  | nil => rfl
  | cons x cells ih =>
    rw [Tables.putBlock_cons (sound x List.mem_cons_self), ih (fun y hy => sound y (List.mem_cons_of_mem _ hy)) fun k hk => ?_]
    · exact t.cell_putRecord_ne _ (h 0 (Nat.succ_pos _)).symm
    · rw [Nat.add_right_comm]
      exact h (k + 1) (Nat.succ_lt_succ hk)

/-- A block written puts each cell of the list in its place. -/
theorem Tables.cell_putBlock_inside {t : Tables} {b : Block} (hb : b.inRange = true) {n k : Nat}
    {cells : List (Octet × Octet × Octet)} (sound : ∀ x ∈ cells, cellSound x) {x : Octet × Octet × Octet}
    (h : cells[k]? = some x) : (t.putBlock b n (cells.map checkedCell)).cell (b.index (n + k)) = cellOf x := by
  induction cells generalizing t n k with
  | nil => cases h
  | cons y cells ih =>
    have hrest : ∀ z ∈ cells, cellSound z := fun z hz => sound z (List.mem_cons_of_mem _ hz)
    rw [Tables.putBlock_cons (sound y List.mem_cons_self)]
    cases k with
    | zero =>
      obtain rfl : y = x := by simpa using h
      rw [Tables.cell_putBlock_outside hrest fun k _ e => absurd (Block.index_injective hb e) (by omega)]
      exact t.cell_putRecord_self _ _
    | succ k =>
      rw [Nat.add_comm k 1, ← Nat.add_assoc]
      exact ih hrest h

/-- The cell at a position of the list, read back from its place in the rectangle. -/
theorem Tables.cell_putBlock_index {t : Tables} {b : Block} (hb : b.inRange = true) {k : Nat}
    {cells : List (Octet × Octet × Octet)} (sound : ∀ x ∈ cells, cellSound x) {x : Octet × Octet × Octet}
    (h : cells[k]? = some x) : (t.putBlock b 0 (cells.map checkedCell)).cell (b.index k) = cellOf x := by
  have written := Tables.cell_putBlock_inside (t := t) (n := 0) hb sound h
  rwa [Nat.zero_add] at written

/-- A list that fills the rectangle leaves the cells outside it. -/
theorem Tables.cell_putBlock_of_outside {t : Tables} {b : Block} (hb : b.inRange = true)
    {cells : List (Octet × Octet × Octet)} (sound : ∀ x ∈ cells, cellSound x) (hl : cells.length = b.size) {row column : Nat}
    (hcolumn : column < 32)
    (h : ¬(b.firstRow ≤ row ∧ row ≤ b.lastRow ∧ b.firstColumn ≤ column ∧ column ≤ b.lastColumn)) :
    (t.putBlock b 0 (cells.map checkedCell)).cell (32 * row + column) = t.cell (32 * row + column) := by
  refine Tables.cell_putBlock_outside sound fun k hk e => h ((Block.exists_index_iff hb hcolumn).1 ⟨k, hl ▸ hk, ?_⟩)
  rwa [Nat.zero_add] at e

/-- A block written leaves every other table. -/
theorem Tables.record?_putBlock_ne {t : Tables} {b : Block} {n i : Nat} {k : TableId} {cells : List (Octet × Octet × Octet)}
    (sound : ∀ x ∈ cells, cellSound x) (hk : k ≠ .matrix) :
    (t.putBlock b n (cells.map checkedCell)).record? k i = t.record? k i := by
  induction cells generalizing t n with
  | nil => rfl
  | cons x cells ih =>
    rw [Tables.putBlock_cons (sound x List.mem_cons_self), ih fun y hy => sound y (List.mem_cons_of_mem _ hy)]
    exact Tables.record?_putRecord_ne (fun y hy => by cases hy; rfl) (.inl hk)

/-! ## What WRITE BLOCK answers, check by check (R38) -/

/-- The rectangle that four octets name. -/
abbrev rectangle (r1 r2 c1 c2 : Octet) : Block := ⟨r1.toNat, r2.toNat, c1.toNat, c2.toNat⟩

theorem State.answerWriteBlock_of_misfit (s : State) {bank r1 r2 c1 c2 form : Octet} {octets : List Octet}
    (h : bankOf? bank = none ∨ (rectangle r1 r2 c1 c2).inRange = false ∨
      blockCells (rectangle r1 r2 c1 c2) form octets = none) :
    s.answerWriteBlock bank r1 r2 c1 c2 form octets = s.result .badParameter := by
  unfold State.answerWriteBlock
  dsimp only
  split
  · next i l hi hl =>
    rw [hi, hl] at h
    rw [if_neg (by simpa using h)]
  · rfl

theorem State.answerWriteBlock_of_fit (s : State) {bank r1 r2 c1 c2 form : Octet} {octets : List Octet} {i : BankId}
    {l : List CheckedRecord} (hi : bankOf? bank = some i) (hb : (rectangle r1 r2 c1 c2).inRange = true)
    (hl : blockCells (rectangle r1 r2 c1 c2) form octets = some l) :
    s.answerWriteBlock bank r1 r2 c1 c2 form octets =
      if s.banks.active = i ∨ s.banks.other ≠ .shadow then s.result .bankBusy
      else if s.running .copyBank = true ∨ s.running .loadImage = true then s.result .busy
      else match cellFailure l with
        | some (position, c) => s.badRecord position c
        | none => (s.setTables i ((s.banks.tables i).putBlock (rectangle r1 r2 c1 c2) 0 l)).result .done := by
  unfold State.answerWriteBlock
  simp only [hi, hl, if_pos hb, State.writeBlock, State.writeRefusal_eq]
  split_ifs <;> rfl

/-- A WRITE BLOCK of cells in range, with no check against it, writes them. -/
theorem State.answerWriteBlock_of_sound (s : State) {bank r1 r2 c1 c2 form : Octet} {octets : List Octet} {i : BankId}
    {cells : List (Octet × Octet × Octet)} (hi : bankOf? bank = some i) (hb : (rectangle r1 r2 c1 c2).inRange = true)
    (hl : blockCells (rectangle r1 r2 c1 c2) form octets = some (cells.map checkedCell)) (sound : ∀ x ∈ cells, cellSound x)
    (ha : s.banks.active ≠ i) (ho : s.banks.other = .shadow) (hcopy : s.running .copyBank = false)
    (hload : s.running .loadImage = false) :
    s.answerWriteBlock bank r1 r2 c1 c2 form octets = (s.setTables i ((s.banks.tables i).putBlock (rectangle r1 r2 c1 c2) 0
      (cells.map checkedCell))).result .done := by
  rw [s.answerWriteBlock_of_fit hi hb hl, if_neg (by simp [ha, ho]), if_neg (by simp [hcopy, hload]),
    cellFailure_eq_none sound]

theorem State.tables_setTables (s : State) (i : BankId) (t : Tables) : (s.setTables i t).banks.tables i = t :=
  (Banks.tables_setTables ..).trans (if_pos rfl)

end Sys2Proof.Machine

section

open Sys2Proof Sys2Proof.Machine

/-- Settles O41: the cells as triples of octets, the single value as a list of equal ones; then what each cell reads back. -/
theorem writeBlockFillsItsRectangle : Obligations.WriteBlockFillsItsRectangle := by
  refine ⟨?_, ?_, ?_⟩
  · intro s e bank r1 r2 c1 c2 hi lo span rest i h _ hbank hr hr63 hc hc31 hplan hs1 hs4 ha ho hcopy hload
    have hb : (rectangle r1 r2 c1 c2).inRange = true := (Block.inRange_iff _).2 ⟨hr, hr63, hc, hc31⟩
    have sound : ∀ x ∈ List.replicate (rectangle r1 r2 c1 c2).size (hi, lo, span), cellSound x := fun x hx =>
      List.eq_of_mem_replicate hx ▸ ⟨hplan, hs1, hs4⟩
    refine ⟨_, event_answer h (s.answerWriteBlock_of_sound hbank hb (blockCells_value ..) sound ha ho hcopy hload) rfl rfl,
      rfl, ?_, fun row column hcolumn => ?_, fun k n hk => ?_⟩
    · rw [State.tables_setTables]
      rfl
    · rw [State.tables_setTables]
      split
      · next hin =>
        obtain ⟨k, hk, e⟩ := (Block.exists_index_iff hb hcolumn).2 hin
        rw [← e]
        exact Tables.cell_putBlock_index (x := (hi, lo, span)) hb sound (List.getElem?_replicate_of_lt hk)
      · next hout => exact Tables.cell_putBlock_of_outside hb sound List.length_replicate hcolumn hout
    · rw [State.tables_setTables]
      exact Tables.record?_putBlock_ne sound hk
  · intro s e bank r1 r2 c1 c2 cells i octets width h _ hbank hr hr63 hc hc31 hlength sound ha ho hcopy hload
    have hb : (rectangle r1 r2 c1 c2).inRange = true := (Block.inRange_iff _).2 ⟨hr, hr63, hc, hc31⟩
    refine ⟨_, event_answer h (s.answerWriteBlock_of_sound hbank hb (blockCells_list hlength) sound ha ho hcopy hload) rfl rfl,
      rfl, ?_, fun k x hx => ?_, fun row column hcolumn hout => ?_, fun k n hk => ?_⟩
    · rw [State.tables_setTables]
      rfl
    · rw [State.tables_setTables]
      exact Tables.cell_putBlock_index hb sound hx
    · rw [State.tables_setTables]
      exact Tables.cell_putBlock_of_outside hb sound hlength hcolumn hout
    · rw [State.tables_setTables]
      exact Tables.record?_putBlock_ne sound hk
  · intro s e bank r1 r2 c1 c2 form octets h size unsound
    have refused : ∀ {r data}, s.answerWriteBlock bank r1 r2 c1 c2 form octets = ⟨s, r, data⟩ →
        exec (.writeBlock bank r1 r2 c1 c2 form octets) s = .next (s.replied e r data) := fun ha =>
      event_of_executes_refused (op := (·.answerWriteBlock bank r1 r2 c1 c2 form octets)) h ha
    have hrect := (rectangle r1 r2 c1 c2).inRange_iff
    have hunsound : unsound ↔ (rectangle r1 r2 c1 c2).inRange = false ∨
        cellsUnsound form octets (rectangle r1 r2 c1 c2).size := by
      rw [← Bool.not_eq_true, hrect]
      simp only [unsound, cellsUnsound, not_and_or, Nat.not_le, or_assoc]
      rfl
    refine ⟨fun hu => refused (s.answerWriteBlock_of_misfit (hu.imp_right fun hu => ?_)), fun i hi hu => ?_⟩
    · exact (hunsound.1 hu).imp_right blockCells_of_unsound
    · obtain ⟨hb, hcells⟩ := not_or.1 (mt hunsound.2 hu)
      obtain ⟨cells, hl, place⟩ := exists_blockCells hcells
      have ha := s.answerWriteBlock_of_fit hi (Bool.not_eq_false _ ▸ hb) hl
      refine ⟨fun hbusy => refused (ha.trans (if_pos hbusy)), fun hact ho hbusy => refused ?_,
        fun position a b span hact ho hcopy hload hzero hplace bad before => refused ?_⟩
      · exact ha.trans ((if_neg (not_or.2 ⟨hact, not_not.2 ho⟩)).trans (if_pos hbusy))
      · have hbefore : ∀ j < position, ∃ x, cells[j]? = some x ∧ cellSound x := fun j hj => by
          obtain ⟨a, b, span, hj', sound⟩ := before j hj
          exact ⟨_, place j a b span (fun h => by have := hzero h; omega) hj', sound⟩
        have hbad : ¬cellSound (a, b, span) := fun ⟨hplan, hspan, hspan'⟩ => by
          rcases bad with h | h | h
          · exact Nat.not_lt.2 hplan h
          · exact absurd (toNat_eq_zero_iff.2 h) (Nat.pos_iff_ne_zero.1 hspan)
          · exact Nat.not_lt.2 hspan' h
        have hf := cellFailure_eq_some (place _ _ _ _ hzero hplace) hbad hbefore
        rw [ha, if_neg (not_or.2 ⟨hact, not_not.2 ho⟩), if_neg (by simp [hcopy, hload]), hf]
        rfl

end
end

section
/-! Program resolution (R52 to R68): the plan of a cell and a variant, the overlays that match and those taken, and what a
resolution with a plan leaves. -/

namespace Sys2Proof.Machine

/-! ## The plans chosen (R54, Table 3-1) -/

theorem variantPlan_of_noPlan (span variant : Nat) : variantPlan ⟨0, span⟩ variant = (none, false) := rfl

theorem variantPlan_of_plan {plan span variant : Nat} (hp : 0 < plan) :
    variantPlan ⟨plan, span⟩ variant = (some (plan + min variant (span - 1)), decide (span ≤ variant)) := by
  rw [variantPlan, if_neg (Nat.pos_iff_ne_zero.1 hp)]
  split
  · next h => rw [Nat.min_eq_left (Nat.le_sub_one_of_lt h), decide_eq_false (Nat.not_le.2 h)]
  · next h =>
    have h := Nat.not_lt.1 h
    rw [Nat.min_eq_right ((Nat.sub_le ..).trans h), decide_eq_true h]

theorem variantPlan_eq_none_iff {c : MatrixCell} {variant : Nat} : (variantPlan c variant).1 = none ↔ c.basePlan = 0 := by
  unfold variantPlan
  split
  · next h => simp [h]
  · next h => split <;> simp [h]

/-- Table 3-1, by the first SUBSTITUTE taken, the matrix plan and the APPENDs taken. -/
theorem overlaidPlans_eq (standing : Option Nat) (taken : List OverlayEntry) :
    overlaidPlans standing taken =
      match (taken.filter fun e => e.action == .substitute).head?, standing with
      | some e, _ => some (e.plan, (taken.filter fun e => e.action == .append).map (·.plan))
      | none, some plan => some (plan, (taken.filter fun e => e.action == .append).map (·.plan))
      | none, none => (taken.filter fun e => e.action == .append).head?.map fun e =>
          (e.plan, (taken.filter fun e => e.action == .append).tail.map (·.plan)) := by
  unfold overlaidPlans
  cases taken.filter fun e => e.action == .substitute with
  | cons e rest => rfl
  | nil =>
    cases standing with
    | some plan => rfl
    | none => cases taken.filter fun e => e.action == .append <;> rfl

/-- There is no plan exactly where neither the matrix nor an overlay taken gives one. -/
theorem overlaidPlans_eq_none_iff {standing : Option Nat} {taken : List OverlayEntry} :
    overlaidPlans standing taken = none ↔ standing = none ∧ taken = [] := by
  refine ⟨fun h => ?_, fun ⟨hs, ht⟩ => hs ▸ ht ▸ rfl⟩
  rw [overlaidPlans_eq] at h
  split at h
  · cases h
  · cases h
  · next hsub =>
    refine ⟨rfl, List.eq_nil_iff_forall_not_mem.2 fun e he => ?_⟩
    have happ := List.head?_eq_none_iff.1 (Option.map_eq_none_iff.1 h)
    have hsub := List.head?_eq_none_iff.1 hsub
    rw [List.filter_eq_nil_iff] at happ hsub
    cases ha : e.action with
    | substitute => exact hsub e he (by rw [ha]; rfl)
    | append => exact happ e he (by rw [ha]; rfl)

/-! ## The overlays that match (R55, R56) -/

section Overlays

variable {t : Tables} {options : BitVec 16} {row : Nat} {g : SlotId} {i : Nat}

/-- The overlay at an index of the Overlay List matches. -/
def OverlayHit (t : Tables) (options : BitVec 16) (row : Nat) (g : SlotId) (i : Nat) : Prop :=
  ∃ e, tableGet t.overlays i = some e ∧ options.getLsbD e.optionBit = true ∧ e.slot = g.val ∧
    (e.row = none ∨ e.row = some row)

theorem OverlayEntry.hits_iff {e : OverlayEntry} : e.hits options row g = true ↔
    options.getLsbD e.optionBit = true ∧ e.slot = g.val ∧ (e.row = none ∨ e.row = some row) := by
  unfold OverlayEntry.hits
  cases e.row <;> simp [and_assoc]

theorem tableGet_of_mem_overlayMatches (h : t.wf = true) {x : Nat × OverlayEntry} (hx : x ∈ overlayMatches t options row g) :
    tableGet t.overlays x.1 = some x.2 :=
  have ⟨_, _, overlays, _⟩ := Tables.wf_iff.1 h
  (tableGet_eq_some overlays).2 (List.mem_filter.1 hx).1

theorem overlayHit_iff (h : t.wf = true) : OverlayHit t options row g i ↔ i ∈ (overlayMatches t options row g).map (·.1) := by
  obtain ⟨-, -, overlays, -⟩ := Tables.wf_iff.1 h
  constructor
  · rintro ⟨e, hget, hmatch⟩
    exact List.mem_map_of_mem (f := (·.1)) (a := (i, e))
      (List.mem_filter.2 ⟨(tableGet_eq_some overlays).1 hget, OverlayEntry.hits_iff.2 hmatch⟩)
  · intro hi
    obtain ⟨x, hx, rfl⟩ := List.mem_map.1 hi
    exact ⟨x.2, tableGet_of_mem_overlayMatches h hx, OverlayEntry.hits_iff.1 (List.mem_filter.1 hx).2⟩

theorem overlayMatches_eq_nil_iff (h : t.wf = true) :
    overlayMatches t options row g = [] ↔ ∀ i, ¬OverlayHit t options row g i := by
  simp only [overlayHit_iff h, ← List.eq_nil_iff_forall_not_mem, List.map_eq_nil_iff]

/-- The matching overlays stand in ascending position. -/
theorem pairwise_overlayMatches (h : t.wf = true) : ((overlayMatches t options row g).map (·.1)).Pairwise (· < ·) := by
  obtain ⟨-, -, overlays, -⟩ := Tables.wf_iff.1 h
  exact List.pairwise_map.2 ((tableWf_iff.1 overlays).filter _)

/-- The positions of the overlays taken: the first three that match. -/
def takenOverlays (t : Tables) (options : BitVec 16) (row : Nat) (g : SlotId) : List Nat :=
  ((overlayMatches t options row g).take 3).map (·.1)

theorem takenOverlays_eq : takenOverlays t options row g = ((overlayMatches t options row g).map (·.1)).take 3 :=
  List.map_take

theorem length_takenOverlays_le : (takenOverlays t options row g).length ≤ 3 := by
  rw [takenOverlays, List.length_map]
  exact List.length_take_le ..

theorem pairwise_takenOverlays (h : t.wf = true) : (takenOverlays t options row g).Pairwise (· < ·) :=
  takenOverlays_eq ▸ (pairwise_overlayMatches h).take

theorem overlayHit_of_mem_takenOverlays (h : t.wf = true) (hi : i ∈ takenOverlays t options row g) :
    OverlayHit t options row g i :=
  (overlayHit_iff h).2 (List.mem_of_mem_take (takenOverlays_eq ▸ hi))

/-- The entries of the overlays taken, read back from the list. -/
theorem filterMap_takenOverlays (h : t.wf = true) : (takenOverlays t options row g).filterMap (tableGet t.overlays) =
    ((overlayMatches t options row g).take 3).map (·.2) := by
  rw [takenOverlays, List.filterMap_map, ← List.filterMap_eq_map]
  exact List.filterMap_congr fun x hx => tableGet_of_mem_overlayMatches h (List.mem_of_mem_take hx)

/-- A matching overlay that is not taken stands behind those taken. -/
theorem mem_drop_of_not_taken (h : t.wf = true) (hi : OverlayHit t options row g i) (hn : i ∉ takenOverlays t options row g) :
    i ∈ ((overlayMatches t options row g).map (·.1)).drop 3 := by
  have hmem := (overlayHit_iff h).1 hi
  rw [← List.take_append_drop 3 ((overlayMatches t options row g).map (·.1)), List.mem_append, ← takenOverlays_eq] at hmem
  exact hmem.resolve_left hn

theorem takenOverlays_before (h : t.wf = true) (hi : OverlayHit t options row g i) (hn : i ∉ takenOverlays t options row g) :
    (takenOverlays t options row g).length = 3 ∧ ∀ j ∈ takenOverlays t options row g, j < i := by
  have hdrop := mem_drop_of_not_taken h hi hn
  have hlong := List.length_pos_of_mem hdrop
  have hsplit := pairwise_overlayMatches (t := t) (options := options) (row := row) (g := g) h
  rw [← List.take_append_drop 3 ((overlayMatches t options row g).map (·.1)), List.pairwise_append, ← takenOverlays_eq] at hsplit
  refine ⟨?_, fun j hj => hsplit.2.2 j hj i hdrop⟩
  rw [takenOverlays_eq, List.length_take]
  rw [List.length_drop] at hlong
  omega

/-- A matching overlay is not taken exactly where more than three match (R56). -/
theorem overlay_not_taken_iff (h : t.wf = true) : (∃ i, OverlayHit t options row g i ∧ i ∉ takenOverlays t options row g) ↔
    3 < (overlayMatches t options row g).length := by
  constructor
  · rintro ⟨i, hi, hn⟩
    have hlong := List.length_pos_of_mem (mem_drop_of_not_taken h hi hn)
    rw [List.length_drop, List.length_map] at hlong
    omega
  · intro hlong
    have hlt : 3 < ((overlayMatches t options row g).map (·.1)).length := by rwa [List.length_map]
    refine ⟨_, (overlayHit_iff h).2 (List.getElem_mem hlt), fun hmem => ?_⟩
    have hnodup := (pairwise_overlayMatches (options := options) (row := row) (g := g) h).imp Nat.ne_of_lt
    rw [takenOverlays_eq, List.mem_take_iff_getElem] at hmem
    obtain ⟨j, hj, hj'⟩ := hmem
    have := (List.Nodup.getElem_inj_iff hnodup).1 hj'
    omega

end Overlays

/-! ## The outcome (R52, R63, R67, R68) -/

/-- What a resolution leaves in the slot entry of a gun where the expansion answers `r`. -/
def Resolution.Leaves (x : Resolution) (t : Tables) (gun : Gun) (overrunTested : Bool) :
    Except ExpansionErrorKind (List ExpandedGroup) → Prop
  | .error k => x.expansionError = some k ∧ x.program = none ∧ x.groups = [] ∧ x.plannedSpots = none ∧ x.clamp = false ∧
      x.dressRequested = false ∧ x.wearUnconfirmed = false ∧ x.fault = some .expansionError
  | .ok groups => x.expansionError = none ∧ x.program = (t.plan? x.effectivePlan).map (·.program) ∧
      x.groups = groups.map (·.stepped gun) ∧ x.plannedSpots = some (groups.map (·.spots)).sum ∧
      x.clamp = groups.any (·.clamped gun) ∧ x.dressRequested = gun.needsDress ∧ x.wearUnconfirmed = gun.wearUnknown ∧
      x.fault = if overrunTested && gun.overrun then some .wearOverrun else none

section Resolved

variable {t : Tables} {gun : Gun} {overrunTested : Bool} {row variant : Nat} {options : BitVec 16} {g : SlotId}

theorem resolve_eq_none_iff : resolve t gun overrunTested row variant options g = none ↔
    overlaidPlans (variantPlan (t.cell (32 * row + g.val)) variant).1
      (((overlayMatches t options row g).take 3).map (·.2)) = none := by
  unfold resolve
  dsimp only
  split
  · next h => exact iff_of_true rfl h
  · next h =>
    rw [h]
    split <;> simp

/-- A resolution with a plan: the overlays taken, the plans they leave, its expansion, and its warning. -/
theorem resolve_eq_some {x : Resolution} (h : resolve t gun overrunTested row variant options g = some x) :
    x.overlays = takenOverlays t options row g ∧
      x.warned = ((variantPlan (t.cell (32 * row + g.val)) variant).2 ||
        decide (3 < (overlayMatches t options row g).length) || x.clamp) ∧
      ∃ appended, overlaidPlans (variantPlan (t.cell (32 * row + g.val)) variant).1
          (((overlayMatches t options row g).take 3).map (·.2)) = some (x.effectivePlan, appended) ∧
        x.Leaves t gun overrunTested (expandAll t (x.effectivePlan :: appended) []) := by
  unfold resolve at h
  dsimp only at h
  split at h
  · cases h
  · next plan appended hplans =>
    split at h
    · next k hexpand =>
      cases h
      refine ⟨rfl, (Bool.or_false _).symm, appended, hplans, ?_⟩
      rw [hexpand]
      exact ⟨rfl, rfl, rfl, rfl, rfl, rfl, rfl, rfl⟩
    · next groups hexpand =>
      cases h
      refine ⟨rfl, rfl, appended, hplans, ?_⟩
      rw [hexpand]
      exact ⟨rfl, rfl, rfl, rfl, rfl, rfl, rfl, rfl⟩

end Resolved

end Sys2Proof.Machine

section

open Sys2Proof Sys2Proof.Machine

/-- Settles O23: the plans as Table 3-1 has them, the overlays taken as the first three positions that match, and a resolution
by what its expansion answers. -/
theorem variantAndOverlaysChooseThePlans : Obligations.VariantAndOverlaysChooseThePlans := by
  refine ⟨fun plan span variant hp _ _ _ => ⟨variantPlan_of_plan hp, variantPlan_of_noPlan span variant⟩,
    overlaidPlans_eq, fun t gun overrunTested row variant options g hwf => ⟨?_, fun x hx => ?_⟩⟩
  · calc resolve t gun overrunTested row variant options g = none
      _ ↔ (t.cell (32 * row + g.val)).basePlan = 0 ∧ overlayMatches t options row g = [] := by
        rw [resolve_eq_none_iff, overlaidPlans_eq_none_iff, variantPlan_eq_none_iff]
        simp
      _ ↔ _ := and_congr_right' (overlayMatches_eq_nil_iff hwf)
  · obtain ⟨hoverlays, hwarned, appended, hplans, hleaves⟩ := resolve_eq_some hx
    rw [hoverlays]
    refine ⟨length_takenOverlays_le, pairwise_takenOverlays hwf, fun i => overlayHit_of_mem_takenOverlays hwf,
      fun i => takenOverlays_before hwf, ?_, appended, ?_, ?_⟩
    · rw [hwarned, Bool.or_eq_true, Bool.or_eq_true, decide_eq_true_iff, ← overlay_not_taken_iff hwf, or_assoc,
        or_comm (b := x.clamp = true)]
      rfl
    · rw [filterMap_takenOverlays hwf, hplans]
    · cases hexpand : expandAll t (x.effectivePlan :: appended) [] <;> rw [hexpand] at hleaves
      case error k => exact .inl ⟨k, rfl, hleaves⟩
      case ok groups =>
        obtain ⟨herror, hprogram, hgroups, hspots, hclamp, hdress, hunknown, hfault⟩ := hleaves
        refine .inr ⟨groups, rfl, herror, hprogram, hgroups, hspots, ?_, ?_, hunknown, ?_⟩
        · rw [hclamp, List.any_eq_true]
          rfl
        · rw [hdress, Gun.needsDress, decide_eq_true_iff]
        · simp [hfault, Gun.overrun]

end
end

section
/-! Expansion (R59 to R63): what each test answers, the steps of a plan at a depth against what they lay out and the first test
that fails, and chains of plans. -/

namespace Sys2Proof.Machine

section Expansion

variable {t : Tables} {schedule spots depth free held p q : Nat} {steps : List PlanStep} {buffer added : List ExpandedGroup}
  {k : ExpansionErrorKind}

/-! ## A GROUP step (R61, R62) -/

theorem expandGroup_of_full (h : 24 ≤ buffer.length) : expandGroup t schedule spots buffer = .error .length := if_pos h

theorem expandGroup_of_groupOf {x : ExpandedGroup} (h : GroupOf t schedule spots x) (hb : buffer.length < 24) :
    expandGroup t schedule spots buffer = .ok (buffer ++ [x]) := by
  have hroom : ¬groupLimit ≤ buffer.length := Nat.not_le.2 hb
  cases h with
  | plain hs hc => simp [expandGroup, hroom, hs, hc]
  | curved hs hc hp => simp [expandGroup, hroom, hs, hc, hp]

/-- A GROUP step has no group to lay out exactly where its schedule, or the curve above 0 that names, is empty. -/
theorem no_groupOf_iff : (∀ x, ¬GroupOf t schedule spots x) ↔
    t.schedule? schedule = none ∨ ∃ e, t.schedule? schedule = some e ∧ e.curve ≠ 0 ∧ t.curve? e.curve = none := by
  constructor
  · intro h
    cases hs : t.schedule? schedule with
    | none => exact .inl rfl
    | some e =>
      have hc : e.curve ≠ 0 := fun hc => h _ (.plain hs hc)
      have hp : t.curve? e.curve = none := Option.eq_none_iff_forall_ne_some.2 fun points hp => h _ (.curved hs hc hp)
      exact .inr ⟨e, rfl, hc, hp⟩
  · rintro h x (⟨hs, hc⟩ | ⟨hs, hc, hp⟩) <;> simp_all

theorem expandGroup_of_no_groupOf (h : ∀ x, ¬GroupOf t schedule spots x) (hb : buffer.length < 24) :
    expandGroup t schedule spots buffer = .error .missing := by
  have hroom : ¬groupLimit ≤ buffer.length := Nat.not_le.2 hb
  rcases no_groupOf_iff.1 h with hs | ⟨e, hs, hc, hp⟩
  · simp [expandGroup, hroom, hs]
  · simp [expandGroup, hroom, hs, hc, hp]

/-! ## The steps of a plan (R59, R60) -/

/-- What an expansion of steps at a depth may answer. -/
def StepsOutcome (t : Tables) (depth : Nat) (steps : List PlanStep) (buffer : List ExpandedGroup) :
    Except ExpansionErrorKind (List ExpandedGroup) → Prop
  | .ok groups => ∃ added, LaidOut t depth steps added ∧ groups = buffer ++ added ∧ groups.length ≤ 24
  | .error k => StepsFail t depth steps buffer.length k

/-- What the expansion of a CALL at a depth may answer. -/
def CallOutcome (t : Tables) (depth plan : Nat) (buffer : List ExpandedGroup) :
    Except ExpansionErrorKind (List ExpandedGroup) → Prop
  | .ok groups => depth ≤ 3 ∧ ∃ e, t.plan? plan = some e ∧ StepsOutcome t (depth + 1) e.steps buffer (.ok groups)
  | .error k => ∀ rest, StepsFail t depth (.call plan :: rest) buffer.length k

/-- Where each CALL has an allowed outcome, so have the steps. -/
theorem stepsOutcome_of_calls {call : Nat → List ExpandedGroup → Except ExpansionErrorKind (List ExpandedGroup)}
    (hcall : ∀ plan buffer, buffer.length ≤ 24 → CallOutcome t depth plan buffer (call plan buffer))
    (hb : buffer.length ≤ 24) : StepsOutcome t depth steps buffer (expandSteps t call steps buffer) := by
  induction steps generalizing buffer with
  | nil => exact ⟨[], .done, (List.append_nil _).symm, hb⟩
  | cons step rest ih =>
    cases step with
    | group schedule spots =>
      by_cases hfull : 24 ≤ buffer.length
      · rw [expandSteps, expandGroup_of_full hfull]
        exact .length hfull
      have hroom := Nat.not_le.1 hfull
      by_cases hx : ∃ x, GroupOf t schedule spots x
      · obtain ⟨x, hx⟩ := hx
        have behind := ih (buffer := buffer ++ [x]) (by simpa using hroom)
        rw [expandSteps, expandGroup_of_groupOf hx hroom]
        dsimp only
        cases hr : expandSteps t call rest (buffer ++ [x]) <;> rw [hr] at behind
        case ok groups =>
          obtain ⟨added, hlaid, rfl, hlength⟩ := behind
          exact ⟨x :: added, .group hx hlaid, by simp, hlength⟩
        case error k =>
          have hfail : StepsFail t depth rest (buffer ++ [x]).length k := behind
          exact .afterGroup hroom hx (by simpa using hfail)
      · rw [expandSteps, expandGroup_of_no_groupOf (not_exists.1 hx) hroom]
        exact .noGroup hroom (not_exists.1 hx)
    | call plan =>
      have called := hcall plan buffer hb
      rw [expandSteps]
      cases hc : call plan buffer <;> rw [hc] at called
      case error k => exact called rest
      case ok inside =>
        obtain ⟨hdepth, e, hplan, inner, hinner, rfl, hlength⟩ := called
        have behind := ih hlength
        dsimp only
        cases hr : expandSteps t call rest (buffer ++ inner) <;> rw [hr] at behind
        case ok groups =>
          obtain ⟨added, hlaid, rfl, hlength'⟩ := behind
          exact ⟨inner ++ added, .call hdepth hplan hinner hlaid, List.append_assoc .., hlength'⟩
        case error k =>
          have hfail : StepsFail t depth rest (buffer ++ inner).length k := behind
          rw [List.length_append] at hlength hfail
          exact .afterCall hdepth hplan hinner hlength hfail

theorem expandCall_of_plan {e : PlanEntry} (h : t.plan? p = some e) :
    expandCall t (free + 1) p buffer = expandSteps t (expandCall t free) e.steps buffer := by
  rw [expandCall, h]

theorem expandCall_outcome (hd : depth + free = 4) (hb : buffer.length ≤ 24) :
    CallOutcome t depth p buffer (expandCall t free p buffer) := by
  induction free generalizing depth p buffer with
  | zero =>
    obtain rfl : depth = 4 := hd
    exact fun rest => .depth
  | succ free ih =>
    cases hplan : t.plan? p with
    | none =>
      rw [expandCall, hplan]
      exact fun rest => .noPlan (by omega) hplan
    | some e =>
      have inside : StepsOutcome t (depth + 1) e.steps buffer (expandSteps t (expandCall t free) e.steps buffer) :=
        stepsOutcome_of_calls (fun plan buffer hb => ih (by omega) hb) hb
      rw [expandCall_of_plan hplan]
      cases hr : expandSteps t (expandCall t free) e.steps buffer <;> rw [hr] at inside
      case ok groups => exact ⟨by omega, e, hplan, inside⟩
      case error k => exact fun rest => .inside (by omega) hplan inside

theorem expandSteps_outcome (hd : depth + free = 4) (hb : buffer.length ≤ 24) :
    StepsOutcome t depth steps buffer (expandSteps t (expandCall t free) steps buffer) :=
  stepsOutcome_of_calls (fun _ _ hb => expandCall_outcome hd hb) hb

theorem expandSteps_of_laidOut (h : LaidOut t depth steps added) (hd : depth + free = 4)
    (hb : (buffer ++ added).length ≤ 24) : expandSteps t (expandCall t free) steps buffer = .ok (buffer ++ added) := by
  induction h generalizing free buffer with
  | done => simp [expandSteps]
  | group hx _ ih =>
    have hroom : buffer.length < 24 := by simp at hb; omega
    rw [List.append_cons] at hb ⊢
    rw [expandSteps, expandGroup_of_groupOf hx hroom]
    exact ih hd hb
  | call hdepth hplan _ _ inside behind =>
    obtain ⟨free, rfl⟩ := Nat.exists_eq_add_one.2 (show 0 < free by omega)
    rw [← List.append_assoc] at hb ⊢
    rw [expandSteps, expandCall_of_plan hplan, inside (by omega) (by simp at hb ⊢; omega)]
    exact behind hd hb

theorem expandSteps_of_stepsFail (h : StepsFail t depth steps held k) (hd : depth + free = 4) (hh : buffer.length = held)
    (hb : held ≤ 24) : expandSteps t (expandCall t free) steps buffer = .error k := by
  induction h generalizing free buffer with
  | length hfull => rw [expandSteps, expandGroup_of_full (hh ▸ hfull)]
  | noGroup hroom hx => rw [expandSteps, expandGroup_of_no_groupOf hx (hh ▸ hroom)]
  | depth =>
    obtain rfl : free = 0 := by omega
    rfl
  | noPlan hdepth hplan =>
    obtain ⟨free, rfl⟩ := Nat.exists_eq_add_one.2 (show 0 < free by omega)
    rw [expandSteps, expandCall, hplan]
  | inside hdepth hplan _ ih =>
    obtain ⟨free, rfl⟩ := Nat.exists_eq_add_one.2 (show 0 < free by omega)
    rw [expandSteps, expandCall_of_plan hplan, ih (by omega) hh hb]
  | afterGroup hroom hx _ ih =>
    rw [expandSteps, expandGroup_of_groupOf hx (hh ▸ hroom)]
    exact ih hd (by simp [hh]) hroom
  | afterCall hdepth hplan hinner hlength _ ih =>
    obtain ⟨free, rfl⟩ := Nat.exists_eq_add_one.2 (show 0 < free by omega)
    rw [expandSteps, expandCall_of_plan hplan, expandSteps_of_laidOut hinner (by omega) (by simp [hh, hlength])]
    exact ih hd (by simp [hh]) hlength

/-! ## A top-level plan (R59, R62) -/

/-- A top-level plan is expanded as a CALL with five frames left. -/
theorem expandTop_eq_expandCall : expandTop t p buffer = expandCall t 5 p buffer := rfl

theorem expandTop_of_none (h : t.plan? p = none) : expandTop t p buffer = .error .missing := by
  rw [expandTop, h]

theorem expandTop_of_some {e : PlanEntry} (h : t.plan? p = some e) :
    expandTop t p buffer = expandSteps t (expandCall t 4) e.steps buffer :=
  expandTop_eq_expandCall.trans (expandCall_of_plan h)

theorem expandTop_eq_ok_iff {groups : List ExpandedGroup} (hb : buffer.length ≤ 24) : expandTop t p buffer = .ok groups ↔
    ∃ e added, t.plan? p = some e ∧ LaidOut t 0 e.steps added ∧ groups = buffer ++ added ∧ groups.length ≤ 24 := by
  constructor
  · intro h
    cases hplan : t.plan? p with
    | none => cases (expandTop_of_none hplan).symm.trans h
    | some e =>
      have outcome := expandSteps_outcome (t := t) (depth := 0) (free := 4) (steps := e.steps) rfl hb
      rw [← expandTop_of_some hplan, h] at outcome
      obtain ⟨added, hlaid, hgroups, hlength⟩ := outcome
      exact ⟨e, added, rfl, hlaid, hgroups, hlength⟩
  · rintro ⟨e, added, hplan, hlaid, rfl, hlength⟩
    exact (expandTop_of_some hplan).trans (expandSteps_of_laidOut hlaid rfl hlength)

theorem expandTop_eq_error_iff (hb : buffer.length ≤ 24) : expandTop t p buffer = .error k ↔
    (t.plan? p = none ∧ k = .missing) ∨ ∃ e, t.plan? p = some e ∧ StepsFail t 0 e.steps buffer.length k := by
  constructor
  · intro h
    cases hplan : t.plan? p with
    | none =>
      cases (expandTop_of_none hplan).symm.trans h
      exact .inl ⟨rfl, rfl⟩
    | some e =>
      have outcome := expandSteps_outcome (t := t) (depth := 0) (free := 4) (steps := e.steps) rfl hb
      rw [← expandTop_of_some hplan, h] at outcome
      exact .inr ⟨e, rfl, outcome⟩
  · rintro (⟨hplan, rfl⟩ | ⟨e, hplan, hfail⟩)
    · exact expandTop_of_none hplan
    · exact (expandTop_of_some hplan).trans (expandSteps_of_stepsFail hfail rfl rfl hb)

/-- Plans expanded one after the other leave at most 24 groups, those they began with in front. -/
theorem expandAll_eq_ok {plans : List Nat} {groups : List ExpandedGroup} (hb : buffer.length ≤ 24)
    (h : expandAll t plans buffer = .ok groups) : groups.length ≤ 24 ∧ buffer <+: groups := by
  induction plans generalizing buffer with
  | nil =>
    cases h
    exact ⟨hb, List.prefix_rfl⟩
  | cons plan plans ih =>
    rw [expandAll] at h
    cases htop : expandTop t plan buffer with
    | error k =>
      rw [htop] at h
      cases h
    | ok first =>
      rw [htop] at h
      obtain ⟨e, added, hplan, hlaid, rfl, hlength⟩ := (expandTop_eq_ok_iff hb).1 htop
      obtain ⟨hgroups, hprefix⟩ := ih hlength h
      exact ⟨hgroups, (List.prefix_append ..).trans hprefix⟩

/-! ## Chains of plans (R60) -/

theorem isChain_of_getElem? {α : Type} {R : α → α → Prop} {l : List α}
    (h : ∀ k x y, l[k]? = some x → l[k + 1]? = some y → R x y) : l.IsChain R :=
  List.isChain_iff_getElem.2 fun k hk => h k _ _ (List.getElem?_eq_getElem _) (List.getElem?_eq_getElem hk)

/-- A plan begins with a CALL of another. -/
def Tables.beginsWithCall (t : Tables) (x y : Nat) : Prop := ∃ e, t.plan? x = some e ∧ e.steps.head? = some (.call y)

/-- A plan is only a CALL of another. -/
def Tables.onlyCalls (t : Tables) (x y : Nat) : Prop := ∃ e, t.plan? x = some e ∧ e.steps = [.call y]

/-- A chain longer than the frames left fails with depth. -/
theorem expandCall_of_long_chain {chain : List Nat} (h : (p :: chain).IsChain t.beginsWithCall) (hl : free ≤ chain.length) :
    expandCall t free p buffer = .error .depth := by
  induction free generalizing p chain with
  | zero => rfl
  | succ free ih =>
    obtain _ | ⟨y, chain⟩ := chain
    · cases hl
    obtain ⟨⟨e, hplan, hhead⟩, behind⟩ := List.isChain_cons_cons.1 h
    obtain ⟨rest, hsteps⟩ : ∃ rest, e.steps = .call y :: rest := List.head?_eq_some_iff.1 hhead
    rw [expandCall_of_plan hplan, hsteps, expandSteps, ih behind (Nat.le_of_succ_le_succ hl)]

/-- A chain of plans each of them only a CALL of the next is expanded as its last plan, with a frame less for every CALL. -/
theorem expandCall_of_call_chain {chain : List Nat} (h : (p :: chain).IsChain t.onlyCalls)
    (hlast : (p :: chain).getLast? = some q) :
    expandCall t (free + chain.length) p buffer = expandCall t free q buffer := by
  induction chain generalizing p with
  | nil =>
    cases hlast
    rfl
  | cons y chain ih =>
    obtain ⟨⟨e, hplan, hsteps⟩, behind⟩ := List.isChain_cons_cons.1 h
    rw [List.getLast?_cons_cons] at hlast
    rw [List.length_cons, ← Nat.add_assoc, expandCall_of_plan hplan, hsteps, expandSteps, ih behind hlast]
    cases expandCall t free q buffer <;> rfl

/-- Steps without a CALL are expanded alike whatever a CALL would do. -/
theorem expandSteps_of_no_call {call call' : Nat → List ExpandedGroup → Except ExpansionErrorKind (List ExpandedGroup)}
    (h : ∀ y, PlanStep.call y ∉ steps) : expandSteps t call steps buffer = expandSteps t call' steps buffer := by
  induction steps generalizing buffer with
  | nil => rfl
  | cons step rest ih =>
    cases step with
    | call y => exact absurd List.mem_cons_self (h y)
    | group schedule spots =>
      rw [expandSteps, expandSteps]
      cases expandGroup t schedule spots buffer with
      | ok buffer' => exact ih fun y hy => h y (List.mem_cons_of_mem _ hy)
      | error k => rfl

theorem expandTop_of_call_chain {chain : List Nat} (h : (p :: chain).IsChain t.onlyCalls) (hl : chain.length ≤ 4)
    (hlast : (p :: chain).getLast? = some q) : ∃ free, expandTop t p buffer = expandCall t (free + 1) q buffer := by
  refine ⟨4 - chain.length, ?_⟩
  rw [expandTop_eq_expandCall, ← expandCall_of_call_chain h hlast]
  congr 1
  omega

end Expansion

end Sys2Proof.Machine

section

open Sys2Proof Sys2Proof.Machine

/-- Settles O24: the plan's steps by their two possible outcomes, the chains through the frames left on the stack, and a first
GROUP step as the first test that fails. -/
theorem expansionLeavesAtMost24Groups : Obligations.ExpansionLeavesAtMost24Groups := by
  intro t buffer hb
  refine ⟨fun plans groups h => ?_, fun p plans => rfl, fun p groups => expandTop_eq_ok_iff hb,
    fun p k => expandTop_eq_error_iff hb, fun p chain h hl => ?_, fun p last chain h hl hlast => ?_,
    fun p e schedule spots hplan hhead => ?_⟩
  · obtain ⟨hlength, added, rfl⟩ := expandAll_eq_ok hb h
    exact ⟨hlength, added, rfl⟩
  · exact expandCall_of_long_chain (isChain_of_getElem? h) hl
  · obtain ⟨free, hcall⟩ := expandTop_of_call_chain (isChain_of_getElem? h) hl hlast
    rw [hcall]
    refine ⟨fun hnone => ?_, fun e hplan hsteps => ?_⟩
    · rw [expandCall, hnone]
    · rw [expandCall_of_plan hplan, expandTop_of_some hplan]
      exact expandSteps_of_no_call hsteps
  · obtain ⟨rest, hsteps⟩ : ∃ rest, e.steps = .group schedule spots :: rest := List.head?_eq_some_iff.1 hhead
    refine ⟨fun hfull => (expandTop_eq_error_iff hb).2 (.inr ⟨e, hplan, hsteps ▸ ?_⟩),
      fun hroom hmissing => (expandTop_eq_error_iff hb).2 (.inr ⟨e, hplan, hsteps ▸ ?_⟩)⟩
    · exact .length hfull.ge
    · exact .noGroup hroom (no_groupOf_iff.2 hmissing)

end
end

section
/-! The Current Stepper (R82 to R84): the raise along an ordered curve, breakpoint by breakpoint, and the current it steps. -/

namespace Sys2Proof.Machine

/-! ## The line from one breakpoint to the next -/

/-- The raise on the line from one breakpoint to the next (R82). -/
def lineRaise (x y : Breakpoint) (wear : Nat) : Nat :=
  x.raise + (y.raise - x.raise) * (wear - x.wear) / (y.wear - x.wear)

theorem lineRaise_le {x y : Breakpoint} {wear : Nat} (hr : x.raise ≤ y.raise) (hw : wear ≤ y.wear) :
    lineRaise x y wear ≤ y.raise := by
  have hpart : (y.raise - x.raise) * (wear - x.wear) / (y.wear - x.wear) ≤ y.raise - x.raise :=
    Nat.div_le_of_le_mul (by
      rw [Nat.mul_comm]
      exact Nat.mul_le_mul_right _ (by omega))
  unfold lineRaise
  omega

theorem lineRaise_mono (x y : Breakpoint) {wear wear' : Nat} (h : wear ≤ wear') :
    lineRaise x y wear ≤ lineRaise x y wear' :=
  Nat.add_le_add_left (Nat.div_le_div_right (Nat.mul_le_mul_left _ (by omega))) _

/-! ## The raise along a curve (R82) -/

section Curve

variable {x y : Breakpoint} {rest : List Breakpoint} {wear wear' : Nat}

theorem curveOrdered_cons_cons : curveOrdered (x :: y :: rest) = true ↔
    x.wear < y.wear ∧ x.raise ≤ y.raise ∧ curveOrdered (y :: rest) = true := by
  simp only [curveOrdered, Bool.and_eq_true, decide_eq_true_eq, and_assoc]

/-- Up to the first breakpoint the raise is the first. -/
theorem curveRaise_of_le_first (h : wear ≤ x.wear) : curveRaise (x :: rest) wear = x.raise := by
  cases rest with
  | nil => rfl
  | cons y rest => exact if_pos h

/-- Before the second breakpoint the raise is the line's, which is the first raise up to the first. -/
theorem curveRaise_of_lt_second (hy : wear < y.wear) :
    curveRaise (x :: y :: rest) wear = lineRaise x y wear := by
  by_cases h : wear ≤ x.wear
  · rw [curveRaise_of_le_first h, lineRaise, Nat.sub_eq_zero_of_le h, Nat.mul_zero, Nat.zero_div, Nat.add_zero]
  · exact (if_neg h).trans (if_pos hy)

/-- From the second breakpoint on the first is passed. -/
theorem curveRaise_of_second_le (hxy : x.wear < y.wear) (hy : y.wear ≤ wear) :
    curveRaise (x :: y :: rest) wear = curveRaise (y :: rest) wear :=
  (if_neg (by omega)).trans (if_neg (by omega))

/-- The breakpoints before one that the wear has reached are passed. -/
theorem curveRaise_append {passed : List Breakpoint} (h : curveOrdered (passed ++ x :: rest) = true) (hx : x.wear ≤ wear) :
    curveRaise (passed ++ x :: rest) wear = curveRaise (x :: rest) wear := by
  induction passed with
  | nil => rfl
  | cons a passed ih =>
    cases passed with
    | nil => exact curveRaise_of_second_le (curveOrdered_cons_cons.1 h).1 hx
    | cons b passed =>
      obtain ⟨hab, -, hbehind⟩ := curveOrdered_cons_cons.1 h
      have hbx : b.wear < x.wear := ((List.pairwise_cons.1 ((curveOrdered_iff _).1 hbehind)).1 x (by simp)).1
      exact (curveRaise_of_second_le hab (by omega)).trans (ih hbehind)

/-- The raise is at least the first. -/
theorem first_le_curveRaise (h : curveOrdered (x :: rest) = true) : x.raise ≤ curveRaise (x :: rest) wear := by
  induction rest generalizing x with
  | nil => exact Nat.le_refl _
  | cons y rest ih =>
    obtain ⟨hw, hr, hbehind⟩ := curveOrdered_cons_cons.1 h
    by_cases hy : wear < y.wear
    · rw [curveRaise_of_lt_second hy]
      exact Nat.le_add_right _ _
    · rw [curveRaise_of_second_le hw (by omega)]
      exact hr.trans (ih hbehind)

/-- The raise never falls as the wear grows. -/
theorem curveRaise_mono {curve : List Breakpoint} (h : curveOrdered curve = true) (hle : wear ≤ wear') :
    curveRaise curve wear ≤ curveRaise curve wear' := by
  induction curve with
  | nil => exact Nat.le_refl _
  | cons x rest ih =>
    cases rest with
    | nil => exact Nat.le_refl _
    | cons y rest =>
      obtain ⟨hw, hr, hbehind⟩ := curveOrdered_cons_cons.1 h
      by_cases hy : wear < y.wear
      · rw [curveRaise_of_lt_second hy]
        by_cases hy' : wear' < y.wear
        · rw [curveRaise_of_lt_second hy']
          exact lineRaise_mono x y hle
        · rw [curveRaise_of_second_le hw (by omega)]
          exact (lineRaise_le hr hy.le).trans (first_le_curveRaise hbehind)
      · rw [curveRaise_of_second_le hw (by omega), curveRaise_of_second_le hw (by omega)]
        exact ih hbehind

/-- From the last breakpoint on the raise is the last. -/
theorem curveRaise_of_last_le {curve : List Breakpoint} (h : curveOrdered curve = true) (hx : curve.getLast? = some x)
    (hw : x.wear ≤ wear) : curveRaise curve wear = x.raise := by
  obtain ⟨passed, rfl⟩ := List.getLast?_eq_some_iff.1 hx
  exact curveRaise_append h hw

/-- Between two neighbouring breakpoints of a curve the raise is the line's from one to the other. -/
theorem curveRaise_of_neighbours {curve : List Breakpoint} {k : Nat} (h : curveOrdered curve = true)
    (hx : curve[k]? = some x) (hy : curve[k + 1]? = some y) (hxw : x.wear ≤ wear) (hyw : wear < y.wear) :
    curveRaise curve wear = lineRaise x y wear := by
  obtain ⟨hk, rfl⟩ := List.getElem?_eq_some_iff.1 hx
  obtain ⟨hk', rfl⟩ := List.getElem?_eq_some_iff.1 hy
  have hcurve : curve = curve.take k ++ curve[k] :: curve[k + 1] :: curve.drop (k + 2) := by
    rw [← List.drop_eq_getElem_cons hk', ← List.drop_eq_getElem_cons hk, List.take_append_drop]
  calc curveRaise curve wear
      = curveRaise (curve.take k ++ curve[k] :: curve[k + 1] :: curve.drop (k + 2)) wear := by rw [← hcurve]
    _ = curveRaise (curve[k] :: curve[k + 1] :: curve.drop (k + 2)) wear := curveRaise_append (hcurve ▸ h) hxw
    _ = lineRaise curve[k] curve[k + 1] wear := curveRaise_of_lt_second hyw

end Curve

/-! ## The stepped current (R82, R84) -/

theorem base_le_unclampedCurrent (base raise : Nat) : base ≤ unclampedCurrent base raise := by
  have hraised : base * 1000 ≤ base * (1000 + raise) := Nat.mul_le_mul_left _ (by omega)
  unfold unclampedCurrent
  omega

theorem unclampedCurrent_mono (base : Nat) {raise raise' : Nat} (h : raise ≤ raise') :
    unclampedCurrent base raise ≤ unclampedCurrent base raise' :=
  Nat.div_le_div_right (Nat.add_le_add_right (Nat.mul_le_mul_left _ (by omega)) _)

theorem steppedCurrent_mono (base ceiling : Nat) {raise raise' : Nat} (h : raise ≤ raise') :
    steppedCurrent base raise ceiling ≤ steppedCurrent base raise' ceiling :=
  min_le_min_right _ (unclampedCurrent_mono base h)

end Sys2Proof.Machine

section

open Sys2Proof Sys2Proof.Machine

/-- Settles O25: the raise never falls along an ordered curve, and neither rounding nor the ceiling turns that round. -/
theorem currentNeverFallsAsWearGrows : Obligations.CurrentNeverFallsAsWearGrows := by
  refine ⟨fun curve base ceiling wear wear' h hle => ⟨?_, ?_, ?_⟩, fun base raise ceiling => ⟨?_, ?_⟩, fun _ => rfl,
    fun curve wear h => ⟨fun x hx => ?_, fun x hx => ⟨?_, ?_⟩, fun k x y => curveRaise_of_neighbours h⟩⟩
  · exact min_le_min_right _ (base_le_unclampedCurrent base _)
  · exact steppedCurrent_mono base ceiling (curveRaise_mono h hle)
  · exact min_le_right _ _
  · exact Nat.min_def
  · exact decide_eq_true_iff
  · obtain ⟨rest, rfl⟩ := List.head?_eq_some_iff.1 hx
    exact ⟨first_le_curveRaise h, curveRaise_of_le_first⟩
  · calc curveRaise curve wear
        ≤ curveRaise curve (max wear x.wear) := curveRaise_mono h (le_max_left _ _)
      _ = x.raise := curveRaise_of_last_le h hx (le_max_right _ _)
  · exact curveRaise_of_last_le h hx

end
end

section
/-! READY and DONE telegrams that do not match (R92, R106, R107): their class, and the counter that is all they change. -/

namespace Sys2Proof.Machine

/-! ## The class of a telegram (R106) -/

section Classify

variable {s : State} {g : SlotId} {tag : Tag} {e : SlotEntry}

theorem State.classify_zero (isReady : Bool) : s.classify g 0 isReady = .stale := by
  simp only [State.classify, if_true]

theorem State.classify_of_cancelled (h0 : tag ≠ 0) (hc : tag ≠ (s.tagState g).current)
    (h : tag = (s.tagState g).cancelled) (isReady : Bool) :
    s.classify g tag isReady = if isReady then .stale else .late :=
  (if_neg h0).trans ((if_neg hc).trans (if_pos h))

theorem State.classify_of_other (h0 : tag ≠ 0) (hc : tag ≠ (s.tagState g).current)
    (h : tag ≠ (s.tagState g).cancelled) (isReady : Bool) : s.classify g tag isReady = .stale :=
  (if_neg h0).trans ((if_neg hc).trans (if_neg h))

/-- An entry that has ended has no selection outstanding. -/
theorem SlotEntry.not_outstanding_of_ended (h : e.ended = true) : e.outstanding = false := by
  unfold SlotEntry.ended at h
  unfold SlotEntry.outstanding
  cases hs : e.state <;> simp_all

/-- The current tag where its owner has ended or is none. -/
theorem State.classify_of_ended (h0 : tag ≠ 0) (hc : tag = (s.tagState g).current)
    (h : ∀ e, s.tagOwner? g = some e → e.ended = true) (isReady : Bool) : s.classify g tag isReady = .duplicate := by
  unfold State.classify
  rw [if_neg h0, if_pos hc]
  cases ho : s.tagOwner? g with
  | none => rfl
  | some e => simp [h e ho, SlotEntry.not_outstanding_of_ended (h e ho)]

/-- The current tag of an entry that is SELECTED or LOADED. -/
theorem State.classify_of_owner (h0 : tag ≠ 0) (hc : tag = (s.tagState g).current) (ho : s.tagOwner? g = some e)
    (he : e.state = .selected ∨ e.state = .loaded) (isReady : Bool) :
    s.classify g tag isReady =
      if s.selectWaiting g then .stale
      else if isReady && e.state == .selected && hasFault e.faults .readyRefused then .duplicate
      else .matching e := by
  simp only [State.classify, if_neg h0, if_pos hc, ho, SlotEntry.outstanding_of he, if_true]

end Classify

/-! ## What a telegram from a robot does, class by class (R105, R107) -/

/-- A telegram of the robot of a slot arrives at the Cell port (R105, R144, R147). -/
def State.fromRobot (s : State) (source : Node) (g : SlotId) : Prop :=
  s.ports.cellUp = true ∧ s.badSource source = false ∧ s.slotOfNode? source = some g

section Robot

variable {s : State} {source : Node} {g : SlotId} {tag : Tag} {verdict quality dressed : Octet}

theorem State.fromRobot_of (hup : s.ports.cellUp = true) (h0 : source ≠ 0) (hb : source ≠ 65535)
    (hown : source ≠ s.filter.ownNode) (hslot : s.slotOfNode? source = some g) : s.fromRobot source g :=
  ⟨hup, by simpa [State.badSource, validNode] using ⟨⟨h0, hb⟩, hown⟩, hslot⟩

/-- A READY or DONE of a slot's robot is taken for the slot. -/
theorem State.fromSource_of_fromRobot (h : s.fromRobot source g) {k : TelegramKind} (hk : k = .ready ∨ k = .done)
    (take : State → SlotId → State) : s.fromSource k .cell source (·.forRobot source take) = take s g := by
  obtain ⟨hup, hbad, hslot⟩ := h
  have hacc : s.accepts k .cell source = true := by
    rcases hk with rfl | rfl <;> simp [State.accepts, hslot]
  simp [State.fromSource, State.linkUp, hup, hbad, hacc, State.forRobot, hslot]

theorem exec_ready_of_fromRobot (h : s.fromRobot source g) (tag : Tag) (verdict reason program : Octet) :
    exec (.ready source tag verdict reason program) s =
      .next (settleNotice s (s.takeReady g tag verdict reason program)) := by
  rw [exec_eq, effect, State.fromSource_of_fromRobot h (.inl rfl)]

theorem exec_done_of_fromRobot (h : s.fromRobot source g) (tag : Tag) (spots quality dressed : Octet) :
    exec (.done source tag spots quality dressed) s =
      .next (settleNotice s (s.takeDone g tag spots quality dressed)) := by
  rw [exec_eq, effect, State.fromSource_of_fromRobot h (.inr rfl)]

theorem exec_ready_stale (h : s.fromRobot source g) (hv : verdict = 1 ∨ verdict = 2)
    (hclass : s.classify g tag true = .stale) (reason program : Octet) :
    exec (.ready source tag verdict reason program) s = .next (s.countStale (stationOf g)) := by
  rw [exec_ready_of_fromRobot h, State.takeReady, if_neg (by tauto), hclass]
  exact congrArg _ (settleNotice_quiet rfl rfl)

theorem exec_ready_duplicate (h : s.fromRobot source g) (hv : verdict = 1 ∨ verdict = 2)
    (hclass : s.classify g tag true = .duplicate ∨ ∃ e, s.classify g tag true = .matching e ∧ e.state ≠ .selected)
    (reason program : Octet) :
    exec (.ready source tag verdict reason program) s = .next (s.countDuplicate (stationOf g)) := by
  have htake : s.takeReady g tag verdict reason program = s.countDuplicate (stationOf g) := by
    rw [State.takeReady, if_neg (by tauto)]
    rcases hclass with hclass | ⟨e, hclass, hstate⟩
    · rw [hclass]
    · rw [hclass]
      exact if_pos hstate
  rw [exec_ready_of_fromRobot h, htake]
  exact congrArg _ (settleNotice_quiet rfl rfl)

/-- A well-formed DONE is taken by its class (R112). -/
theorem not_malformed_done (hq : quality = 1 ∨ quality = 2) (hd : dressed.toNat ≤ 1) :
    ¬((quality ≠ 1 ∧ quality ≠ 2) ∨ 1 < dressed.toNat) := by
  rintro (⟨h1, h2⟩ | h1)
  · exact hq.elim h1 h2
  · omega

theorem exec_done_stale (h : s.fromRobot source g) (hq : quality = 1 ∨ quality = 2) (hd : dressed.toNat ≤ 1)
    (hclass : s.classify g tag false = .stale) (spots : Octet) :
    exec (.done source tag spots quality dressed) s = .next (s.countStale (stationOf g)) := by
  rw [exec_done_of_fromRobot h, State.takeDone, if_neg (not_malformed_done hq hd), hclass]
  exact congrArg _ (settleNotice_quiet rfl rfl)

theorem exec_done_duplicate (h : s.fromRobot source g) (hq : quality = 1 ∨ quality = 2) (hd : dressed.toNat ≤ 1)
    (hclass : s.classify g tag false = .duplicate) (spots : Octet) :
    exec (.done source tag spots quality dressed) s = .next (s.countDuplicate (stationOf g)) := by
  rw [exec_done_of_fromRobot h, State.takeDone, if_neg (not_malformed_done hq hd), hclass]
  exact congrArg _ (settleNotice_quiet rfl rfl)

/-- A Late DONE also wears the gun (R89, R107). -/
theorem exec_done_late (h : s.fromRobot source g) (hq : quality = 1 ∨ quality = 2) (hd : dressed.toNat ≤ 1)
    (hclass : s.classify g tag false = .late) (spots : Octet) :
    exec (.done source tag spots quality dressed) s = .next ((s.countLate (stationOf g)).setGun g
      ((s.gun g).completion (s.station (stationOf g)).dry spots.toNat (dressed == 1))) := by
  rw [exec_done_of_fromRobot h, State.takeDone, if_neg (not_malformed_done hq hd), hclass]
  exact congrArg _ (settleNotice_quiet rfl rfl)

end Robot

end Sys2Proof.Machine

section

open Sys2Proof Sys2Proof.Machine

/-- Settles O29, row by row of R106: the class of the telegram, and the counter of that class. -/
theorem staleAndLateTelegramsAreOnlyCounted : Obligations.StaleAndLateTelegramsAreOnlyCounted := by
  intro s source tag verdict reason program spots quality dressed g hup h0 hb hown hslot hv hq hd st x stale late duplicate
  have h := State.fromRobot_of hup h0 hb hown hslot
  refine ⟨?_, ?_, fun htag hcur hcan => ⟨?_, ?_⟩, fun htag hcur hcan => ⟨?_, ?_⟩, fun htag hcur =>
    ⟨fun hended => ⟨?_, ?_⟩, fun e howner he => ⟨fun hsel => ⟨?_, ?_⟩, fun hsel hrow => ?_⟩⟩⟩
  · exact exec_ready_stale h hv (State.classify_zero true) reason program
  · exact exec_done_stale h hq hd (State.classify_zero false) spots
  · exact exec_ready_stale h hv (State.classify_of_cancelled htag hcur hcan true) reason program
  · rw [exec_done_late h hq hd (State.classify_of_cancelled htag hcur hcan false), Gun.completion_eq]
    rfl
  · exact exec_ready_stale h hv (State.classify_of_other htag hcur hcan true) reason program
  · exact exec_done_stale h hq hd (State.classify_of_other htag hcur hcan false) spots
  · exact exec_ready_duplicate h hv (.inl (State.classify_of_ended htag hcur hended true)) reason program
  · exact exec_done_duplicate h hq hd (State.classify_of_ended htag hcur hended false) spots
  · exact exec_ready_stale h hv ((State.classify_of_owner htag hcur howner he true).trans (if_pos hsel)) reason program
  · exact exec_done_stale h hq hd ((State.classify_of_owner htag hcur howner he false).trans (if_pos hsel)) spots
  · have hclass := (State.classify_of_owner htag hcur howner he true).trans (if_neg (by simp [hsel]))
    refine exec_ready_duplicate h hv ?_ reason program
    split at hclass
    · exact .inl hclass
    · next hrefused =>
      refine .inr ⟨e, hclass, fun hselected => hrefused ?_⟩
      have hfault : hasFault e.faults .readyRefused = true := hrow.resolve_left (by simp [hselected])
      simp [hselected, hfault]

end
end

section
/-! The gun requests (R76 to R79): which are refused, and what SET GUN, SET WEAR and RESET WEAR write. -/

namespace Sys2Proof.Machine

/-! ## The checks (R79) -/

section Checks

variable {s : State} {slot : Octet} {g : SlotId} (op : SlotId → Answer)

theorem State.onGun_of_noSlot (h : 31 < slot.toNat) : s.onGun slot op = s.result .badParameter := by
  rw [State.onGun, slotOf?_eq_none.2 h]

theorem State.onGun_of_busy (h : slot.toNat = g.val) (hb : s.gunBusy g = true) : s.onGun slot op = s.result .busy := by
  rw [State.onGun, slotOf?_eq_some.2 h]
  exact if_pos hb

theorem State.onGun_of_free (h : slot.toNat = g.val) (hb : s.gunBusy g = false) : s.onGun slot op = op g := by
  rw [State.onGun, slotOf?_eq_some.2 h]
  exact if_neg (by simp [hb])

end Checks

/-- The entry of a slot that is SELECTED or LOADED keeps its gun busy. -/
theorem State.gunBusy_of_entry {s : State} {g : SlotId} {e : SlotEntry} (h : s.entry? g = some e)
    (he : e.state = .selected ∨ e.state = .loaded) : s.gunBusy g = true := by
  rw [State.gunBusy, h]
  exact SlotEntry.outstanding_of he

theorem toNat_ofNat_slot (g : SlotId) : (BitVec.ofNat 8 g.val).toNat = g.val := by
  rw [BitVec.toNat_ofNat]
  omega

/-! ## What they write (R76 to R78) -/

/-- A mark cleared where a limit is above the wear. -/
theorem and_decide_le (due : Bool) (limit wear : Nat) :
    (due && decide (limit ≤ wear)) = if wear < limit then false else due := by
  by_cases h : wear < limit
  · simp [h]
  · simp [h, Nat.le_of_not_lt h]

theorem clampLimits_eq (dress hard ceiling : Nat) :
    clampLimits ⟨dress, hard, ceiling⟩ =
      ⟨clamp 100 60000 dress, max hard (clamp 100 60000 dress), clamp 20 1800 ceiling⟩ := by
  unfold clampLimits
  simp only
  congr 1
  split <;> omega

theorem Gun.set_eq (x : Gun) (l : GunLimits) : x.set l =
    { x with
      dressLimit := l.dressLimit, hardLimit := l.hardLimit, ceiling := l.ceiling
      dressDue := if x.wear < l.dressLimit then false else x.dressDue } := by
  rw [← and_decide_le]
  rfl

theorem Gun.setWear_eq (x : Gun) (wear : Nat) : x.setWear wear =
    { x with
      wear := wear, wearUnknown := false
      dressDue := if wear < x.dressLimit then false else x.dressDue } := by
  rw [← and_decide_le]
  rfl

theorem bump_eq {n : Nat} (h : n ≤ 65535) : bump n = if n = 65535 then 65535 else n + 1 := by
  unfold bump
  split <;> split <;> omega

/-- What SET GUN answers for a gun that is not busy: the limits in range, and their octets where one of them was changed. -/
theorem State.answerSetGun_of_free {s : State} {slot : Octet} {g : SlotId} (h : slot.toNat = g.val)
    (hb : s.gunBusy g = false) (dress hard ceiling : BitVec 16) :
    let d := clamp 100 60000 dress.toNat
    let k := max hard.toNat d
    let c := clamp 20 1800 ceiling.toNat
    let t := s.setGun g ((s.gun g).set ⟨d, k, c⟩)
    s.answerSetGun slot dress hard ceiling =
      if d = dress.toNat ∧ c = ceiling.toNat ∧ k = hard.toNat then ⟨t, .done, []⟩
      else ⟨t, .doneClamped, Octets.nat2 d ++ Octets.nat2 k ++ Octets.nat2 c⟩ := by
  rw [State.answerSetGun, State.onGun_of_free _ h hb]
  simp only [clampLimits_eq, GunLimits.mk.injEq]
  exact if_congr (by tauto) rfl rfl

end Sys2Proof.Machine

section

open Sys2Proof Sys2Proof.Machine

/-- Settles O53: `State.answerSetGun_of_free`, with and without a limit changed. -/
theorem setGunStoresClampedLimits : Obligations.SetGunStoresClampedLimits := by
  intro s e g dress hard ceiling h hfree d c k t
  have ha := State.answerSetGun_of_free (toNat_ofNat_slot g) hfree dress hard ceiling
  simp only [Gun.set_eq] at ha
  by_cases hsame : d = dress.toNat ∧ c = ceiling.toNat ∧ k = hard.toNat
  · rw [if_pos hsame]
    exact event_answer h (ha.trans (if_pos hsame)) rfl rfl
  · rw [if_neg hsame]
    exact event_answer h (ha.trans (if_neg hsame)) rfl rfl

/-- Settles O54, request by request. -/
theorem wearRequestsWriteTheWear : Obligations.WearRequestsWriteTheWear := by
  intro s e g wear hfree
  refine ⟨fun h => ?_, fun hcount h => ?_⟩
  · refine event_answer h (State.onGun_of_free _ (toNat_ofNat_slot g) hfree |>.trans ?_) rfl rfl
    rw [Gun.setWear_eq]
    rfl
  · refine event_answer h (State.onGun_of_free _ (toNat_ofNat_slot g) hfree |>.trans ?_) rfl rfl
    rw [Gun.resetWear, bump_eq hcount]
    rfl

/-- Settles O55: the two checks that every gun request begins with. -/
theorem gunRequestsAreRefusedWhileSelected : Obligations.GunRequestsAreRefusedWhileSelected := by
  intro s e slot a b c result h
  have refused : ∀ op, s.onGun slot op = s.result result := by
    intro op
    rcases h with ⟨hslot, rfl⟩ | ⟨g, x, hslot, hx, hstate, rfl⟩
    · exact State.onGun_of_noSlot op hslot
    · exact State.onGun_of_busy op hslot (State.gunBusy_of_entry hx hstate)
  exact ⟨fun h => event_of_executes_refused h (refused _), fun h => event_of_executes_refused h (refused _),
    fun h => event_of_executes_refused h (refused _)⟩

end
end

section
/-! A SELECT departs (R99, R103), and a READY that matches (R104, R108 to R110): what each leaves, and the release test that
follows a refusal. -/

namespace Sys2Proof.Machine

/-! ## A SELECT departs (R99, R103) -/

theorem State.selectTransmit_of_select {s : State} {x : CellTelegram} {c : SelectContent} {rest : List CellTelegram}
    (hup : s.ports.cellUp = true) (hq : s.ports.cellOwn = x :: rest) (hb : x.body = .select c) :
    s.selectTransmit = (s.takeCell x).selectDeparts x.slot := by
  simp [State.selectTransmit, State.cellFront?, hup, hq, hb]

theorem State.takeCell_of_front {s : State} {x : CellTelegram} {rest : List CellTelegram}
    (hq : s.ports.cellOwn = x :: rest) :
    s.takeCell x = { s with ports := { s.ports with cellOwn := rest, cellTx := some x.frame } } := by
  simp only [State.takeCell, hq]
  rfl

/-! ## The tag owner and the entry after a write of the slot's tag state (R94) -/

/-- A write of the tag state that keeps the owner leaves the slot's tag owner. -/
theorem State.tagOwner?_setTag {s : State} {g : SlotId} {t : TagState} (h : t.owned = (s.tagState g).owned) :
    (s.setTag g t).tagOwner? g = s.tagOwner? g := by
  unfold State.tagOwner?
  rw [State.tagState_setTag_self, h]
  rfl

/-- Changing an entry to itself changes nothing. -/
theorem State.modifyEntry_id (s : State) (g : SlotId) : (s.modifyEntry g fun e => e) = s := by
  have hr : ∀ r : BodyRecord, (r.modifyEntry (positionOf g) fun e => e) = r := fun r => by
    simp [BodyRecord.modifyEntry]
  have hx : ((s.station (stationOf g)).modifyHead fun r => r) = s.station (stationOf g) := by
    unfold Station.modifyHead
    split
    · next hq => rw [← hq, ite_self]
    · rfl
  simp only [State.modifyEntry, State.modifyHead, hr, hx, State.setStation_self]

/-! ## A READY that matches (R106, R108 to R110) -/

section Ready

variable {s : State} {source : Node} {tag : Tag} {g : SlotId} {e : SlotEntry}

theorem State.fromRobot_of_answersFor (h : s.answersFor source tag g e) : s.fromRobot source g := by
  obtain ⟨hup, h0, hb, hown, hslot, -⟩ := h
  exact State.fromRobot_of hup h0 hb hown hslot

theorem State.current_of_answersFor (h : s.answersFor source tag g e) : (s.tagState g).current ≠ 0 := by
  obtain ⟨-, -, -, -, -, htag, hcur, -, -⟩ := h
  exact hcur ▸ htag

theorem State.classify_ready_of_answersFor (h : s.answersFor source tag g e) (he : e.state = .selected)
    (hf : hasFault e.faults .readyRefused = false) : s.classify g tag true = .matching e := by
  obtain ⟨-, -, -, -, -, htag, hcur, howner, hsel⟩ := h
  rw [State.classify_of_owner htag hcur howner (.inl he)]
  simp [hsel, hf]

theorem exec_ready_loaded (h : s.answersFor source tag g e) (he : e.state = .selected)
    (hf : hasFault e.faults .readyRefused = false) {program : Octet} (hp : e.program = some program.toNat) (reason : Octet) :
    exec (.ready source tag 1 reason program) s = .next (s.acceptLoaded g) := by
  have htake : s.takeReady g tag 1 reason program = s.acceptLoaded g := by
    simp [State.takeReady, State.classify_ready_of_answersFor h he hf, he, hp]
  rw [exec_ready_of_fromRobot (State.fromRobot_of_answersFor h), htake]
  exact congrArg _ (settleNotice_quiet rfl rfl)

/-- A refusal stops the ready timer and is the fault Ready Refused at the entry with the reason it keeps (R109, R110). -/
theorem State.acceptRefused_eq (hc : (s.tagState g).current ≠ 0) (reason : Option Nat) : s.acceptRefused g reason =
    (State.faulted ((s.setTag g { s.tagState g with readyTimer := none }).modifyEntry g fun e =>
      { e with refusalReason := reason.or e.refusalReason }) g .readyRefused).testRelease (stationOf g) := by
  unfold State.acceptRefused
  rw [State.takeFault_eq fun _ => ?_]
  simpa [State.tagState] using hc

theorem exec_ready_refused (h : s.answersFor source tag g e) (he : e.state = .selected)
    (hf : hasFault e.faults .readyRefused = false) (reason program : Octet) :
    exec (.ready source tag 2 reason program) s = .next (settleNotice s
      ((State.faulted ((s.setTag g { s.tagState g with readyTimer := none }).modifyEntry g fun e =>
        { e with refusalReason := some reason.toNat }) g .readyRefused).testRelease (stationOf g))) := by
  have htake : s.takeReady g tag 2 reason program = s.acceptRefused g (some reason.toNat) := by
    simp [State.takeReady, State.classify_ready_of_answersFor h he hf, he]
  rw [exec_ready_of_fromRobot (State.fromRobot_of_answersFor h), htake, State.acceptRefused_eq (State.current_of_answersFor h)]
  rfl

/-- LOADED with another program is a refusal without a reason (R110). -/
theorem exec_ready_otherProgram (h : s.answersFor source tag g e) (he : e.state = .selected)
    (hf : hasFault e.faults .readyRefused = false) {program : Octet} (hp : e.program ≠ some program.toNat) (reason : Octet) :
    exec (.ready source tag 1 reason program) s = .next (settleNotice s
      ((State.faulted (s.setTag g { s.tagState g with readyTimer := none }) g .readyRefused).testRelease (stationOf g))) := by
  have htake : s.takeReady g tag 1 reason program = s.acceptRefused g none := by
    simp [State.takeReady, State.classify_ready_of_answersFor h he hf, he, hp]
  rw [exec_ready_of_fromRobot (State.fromRobot_of_answersFor h), htake, State.acceptRefused_eq (State.current_of_answersFor h)]
  simp only [Option.none_or, State.modifyEntry_id]

/-- The station's modes after a change of the entry at the slot. -/
theorem State.mode_modifyEntry (s : State) (g : SlotId) (f : SlotEntry → SlotEntry) (k : FaultKind) :
    (s.modifyEntry g f).mode (stationOf g) k = s.mode (stationOf g) k :=
  State.mode_congr (by simp [State.modifyEntry, State.modifyHead]) k

/-- Other work of a head is not touched by a change of the entry at the slot. -/
theorem State.othersWork_modifyEntry (h : s.othersWork g) (f : SlotEntry → SlotEntry) : (s.modifyEntry g f).othersWork g := by
  obtain ⟨r, hr, x, hx, hxp, hxe⟩ := h
  exact ⟨_, State.head?_modifyEntry f hr, x, BodyRecord.other_mem_modifyEntry hx hxp f, hxp, hxe⟩

end Ready

end Sys2Proof.Machine

section

open Sys2Proof Sys2Proof.Machine

/-- Settles O26: the SELECT is taken by the transmitter, and departs at the Handshake Engine (`State.selectDeparts`). -/
theorem selectTransmitStartsTheReadyTimer : Obligations.SelectTransmitStartsTheReadyTimer := by
  intro s x c rest hup hq hb howner st
  have hdeparts : s.selectTransmit = _ :=
    (State.selectTransmit_of_select hup hq hb).trans (if_pos (show ((s.takeCell x).tagOwner? x.slot).isSome = true from howner))
  rw [State.takeCell_of_front hq] at hdeparts
  exact event_eq hdeparts rfl rfl

/-- Settles O27: LOADED with the entry's program by `State.acceptLoaded`, the two refusals by `State.acceptRefused_eq`; a fault
taken while the head has work releases nothing. -/
theorem readyLoadedLoadsTheEntry : Obligations.ReadyLoadedLoadsTheEntry := by
  intro s source tag reason program g e hans he hf st cycleMax stopped
  obtain ⟨-, -, -, -, -, -, -, howner, -⟩ := id hans
  have hentry : s.entry? g = some e := State.entry?_of_tagOwner? howner
  have hout : e.outstanding = true := SlotEntry.outstanding_of (.inl he)
  have hrefused := exec_ready_refused hans he hf reason program
  refine ⟨fun hp => exec_ready_loaded hans he hf hp reason, fun hwork => ⟨?_, fun hp => ?_⟩, State.finishesTo_of hrefused,
    fun hp => State.finishesTo_of (exec_ready_otherProgram hans he hf hp reason)⟩
  · rw [hrefused]
    refine congrArg _ (congrArg _ (State.testRelease_faulted
      (State.entry?_modifyEntry (s := stopped) (fun _ => rfl) hentry) hout fun hpass => ?_))
    rw [State.mode_modifyEntry] at hpass
    exact State.othersWork_modifyEntry (s := stopped) (hwork hpass) _
  · rw [exec_ready_otherProgram hans he hf hp reason]
    exact congrArg _ (congrArg _ (State.testRelease_faulted hentry hout hwork))

end
end

section
/-! The two timers (R103, R104, R127): what an expiry that is due takes, and that no other does anything. -/

namespace Sys2Proof.Machine

/-! ## A slot fault under HOLD (R125) -/

section Fault

variable {s : State} {g : SlotId} {k : FaultKind}

/-- What a fault taken under HOLD leaves beside its record (R125, R132): the kind in the fault set of the entry, which is held; a
DISPATCHING station HELD; and Station Held set. -/
def State.heldFor (s : State) (g : SlotId) (k : FaultKind) : State :=
  let x := s.station (stationOf g)
  { s with
    tracker := { s.tracker with
      stations := s.tracker.stations.set (stationOf g) { x.modifyHead (fun r => r.modifyEntry (positionOf g) fun e =>
          { e with faults := e.faults ||| (1#8 <<< k.number.val), held := true }) with
        state := if x.state = .dispatching then .held else x.state } }
    events := { s.events with flags := s.events.flags ||| (1#29 <<< (stationOf g).val) } }

theorem State.faulted_of_hold (hm : s.mode (stationOf g) k = .hold) : s.faulted g k = (s.heldFor g k).faultOffered g k := by
  simp only [State.faulted, hm]
  rfl

/-- A head with an entry that a fault holds is not released, whatever the state of the entry. -/
theorem State.testRelease_faulted_of_hold {e : SlotEntry} (he : s.entry? g = some e)
    (hm : s.mode (stationOf g) k = .hold) : (s.faulted g k).testRelease (stationOf g) = s.faulted g k := by
  obtain ⟨r, hr, hre⟩ := State.head?_of_entry? he
  have hh : (s.faulted g k).head? (stationOf g) = some (r.modifyEntry (positionOf g) fun e =>
      { e with faults := e.faults ||| (1#8 <<< k.number.val), held := true }) := by
    refine State.head?_of_station_modifyHead (s := s) (f := fun r => r.modifyEntry (positionOf g) fun e =>
      { e with faults := e.faults ||| (1#8 <<< k.number.val), held := true }) ?_ hr fun r => rfl
    simp [State.faulted, hm, State.station]
  refine State.testRelease_of_held hh ?_
  simp only [BodyRecord.anyHeld, Bool.or_eq_true, List.any_eq_true]
  exact .inr ⟨_, BodyRecord.mem_modifyEntry hre _, rfl⟩

end Fault

/-! ## A timeout taken (R127) -/

section Timeout

variable {s : State} {g : SlotId} {k : FaultKind} {i : Instr} {t : TagState}

/-- A timeout that finds a tag owner is the slot fault of its kind, and the release test. -/
theorem State.takeTimeout_of_owner (ho : (s.tagOwner? g).isSome = true)
    (hp : s.mode (stationOf g) k = .pass → (s.tagState g).current ≠ 0) :
    s.takeTimeout g k = (s.faulted g k).testRelease (stationOf g) := by
  rw [State.takeTimeout, if_pos ho, State.takeFault_eq hp]

/-- The command `i` takes the timeout of a kind at a slot whose tag state, its timer stopped, is `t`. -/
def State.timesOut (s : State) (i : Instr) (g : SlotId) (k : FaultKind) (t : TagState) : Prop :=
  t.owned = (s.tagState g).owned ∧ t.current = (s.tagState g).current ∧
    exec i s = .next (settleNotice s ((s.setTag g t).takeTimeout g k))

/-- A timeout under HOLD that no channel takes. -/
theorem exec_timeout_of_hold (h : s.timesOut i g k t) (ho : (s.tagOwner? g).isSome = true)
    (hu : s.unmirrored (stationOf g) .slotFault) (hm : s.mode (stationOf g) k = .hold) :
    exec i s = .next (settleNotice s ((s.setTag g t).heldFor g k)) := by
  obtain ⟨howned, -, hexec⟩ := h
  rw [← State.tagOwner?_setTag howned] at ho
  obtain ⟨e, he⟩ := Option.isSome_iff_exists.1 ho
  have hm' : (s.setTag g t).mode (stationOf g) k = .hold := hm
  rw [hexec, State.takeTimeout_of_owner ho (by simp [hm']),
    State.testRelease_faulted_of_hold (State.entry?_of_tagOwner? he) hm', State.faulted_of_hold hm']
  exact congrArg _ (congrArg _ (State.mirrorFault_of_unmirrored hu))

/-- A timeout at an entry whose selection is outstanding. -/
theorem exec_timeout (h : s.timesOut i g k t) (ho : (s.tagOwner? g).isSome = true) (hc : (s.tagState g).current ≠ 0) :
    exec i s = .next (settleNotice s (((s.setTag g t).faulted g k).testRelease (stationOf g))) := by
  obtain ⟨howned, hcurrent, hexec⟩ := h
  rw [hexec, State.takeTimeout_of_owner (by rw [State.tagOwner?_setTag howned, ho])]
  exact fun _ => by rw [State.tagState_setTag_self, hcurrent]; exact hc

/-- Such a timeout releases no head while another entry works, where its mode is PASS. -/
theorem exec_timeout_of_work {e : SlotEntry} (h : s.timesOut i g k t) (ho : s.tagOwner? g = some e)
    (he : e.state = .selected ∨ e.state = .loaded) (hc : (s.tagState g).current ≠ 0)
    (hw : s.mode (stationOf g) k = .pass → s.othersWork g) :
    exec i s = .next (settleNotice s ((s.setTag g t).faulted g k)) := by
  have hentry : s.entry? g = some e := State.entry?_of_tagOwner? ho
  rw [exec_timeout h (by rw [ho]; rfl) hc, State.testRelease_faulted (s := s.setTag g t) hentry (SlotEntry.outstanding_of he) hw]

end Timeout

/-! ## The timers (R103, R104) -/

section Timers

variable {s : State} {g : SlotId} {expiry : LineTime}

/-- A timer is due once line time has reached its expiry on the circle of 2^32. -/
theorem timerDue_some (now expiry : LineTime) : timerDue now (some expiry) = true ↔ (now - expiry).toNat < 2 ^ 31 := by
  simp [timerDue, reached]

theorem timerDue_eq_false {now expiry : LineTime} {timer : Option LineTime}
    (h : timer = none ∨ (timer = some expiry ∧ ¬(now - expiry).toNat < 2 ^ 31)) : timerDue now timer = false := by
  rcases h with rfl | ⟨rfl, h⟩
  · rfl
  · rwa [← timerDue_some, Bool.not_eq_true] at h

theorem State.timesOut_readyTimeout (h : (s.tagState g).readyTimer = some expiry)
    (hd : (s.lineTime - expiry).toNat < 2 ^ 31) :
    s.timesOut (.readyTimeout g) g .readyTimeout { s.tagState g with readyTimer := none } :=
  ⟨rfl, rfl, event_noticed (if_pos (h ▸ (timerDue_some _ _).2 hd))⟩

theorem State.timesOut_cycleTimeout (h : (s.tagState g).cycleTimer = some expiry)
    (hd : (s.lineTime - expiry).toNat < 2 ^ 31) :
    s.timesOut (.cycleTimeout g) g .cycleTimeout { s.tagState g with cycleTimer := none } :=
  ⟨rfl, rfl, event_noticed (if_pos (h ▸ (timerDue_some _ _).2 hd))⟩

end Timers

end Sys2Proof.Machine

section

open Sys2Proof Sys2Proof.Machine

/-- Settles O30: each timer by what a timeout leaves under HOLD, and while the head has other work; one that is not due is left
as it is. -/
theorem timeoutUnderHoldHoldsTheStation : Obligations.TimeoutUnderHoldHoldsTheStation := by
  intro s g expiry st due held flagged
  refine ⟨fun h hd ho hu hm => ?_, fun h hd ho hu hm => ?_,
    fun e howner he hc hd => ⟨fun h hw => ?_, fun h hw => ?_, fun h => ?_, fun h => ?_⟩, fun h => ?_, fun h => ?_⟩
  · exact exec_timeout_of_hold (State.timesOut_readyTimeout h hd) ho hu hm
  · exact exec_timeout_of_hold (State.timesOut_cycleTimeout h hd) ho hu hm
  · exact exec_timeout_of_work (State.timesOut_readyTimeout h hd) howner he hc hw
  · exact exec_timeout_of_work (State.timesOut_cycleTimeout h hd) howner he hc hw
  · exact State.finishesTo_of (exec_timeout (State.timesOut_readyTimeout h hd) (by rw [howner]; rfl) hc)
  · exact State.finishesTo_of (exec_timeout (State.timesOut_cycleTimeout h hd) (by rw [howner]; rfl) hc)
  · exact event_id (if_neg (Bool.eq_false_iff.1 (timerDue_eq_false h)))
  · exact event_id (if_neg (Bool.eq_false_iff.1 (timerDue_eq_false h)))

end
end

section
/-! Frame errors (R105, R147, R148): what a telegram for the own node is checked for, kind by kind, and that a frame error is all
that one which fails a check is. -/

namespace Sys2Proof.Machine

open Octets

/-! ## Telegram kinds (Table 11-1) -/

/-- The code of a telegram kind (Table 11-1). -/
def TelegramKind.code : TelegramKind → Octet
  | .announce => 0x01
  | .withdraw => 0x02
  | .request => 0x03
  | .select => 0x10
  | .cancel => 0x11
  | .ready => 0x12
  | .done => 0x13
  | .release => 0x20
  | .reply => 0x21
  | .notice => 0x22
  | .copy => 0x23

theorem code_of_kindOf? {o : Octet} {k : TelegramKind} (h : kindOf? o = some k) : o = k.code := by
  unfold kindOf? at h
  split at h <;> cases h <;> exact BitVec.eq_of_toNat_eq (by assumption)

/-- The codes of the kinds with their least body lengths (Table 11-1). -/
def leastBodies : List (Octet × Nat) :=
  [(0x01, 11), (0x02, 5), (0x03, 3), (0x10, 15), (0x11, 2), (0x12, 5), (0x13, 5), (0x20, 28), (0x21, 5), (0x22, 9),
    (0x23, 15)]

theorem mem_leastBodies (k : TelegramKind) : (k.code, k.minimumBody) ∈ leastBodies := by
  cases k <;> decide

theorem minimumBody_of_mem_leastBodies {k : TelegramKind} : ∀ x ∈ leastBodies, k.code = x.1 → k.minimumBody = x.2 := by
  cases k <;> decide

/-! ## The conditions of R147 -/

section Conditions

variable {s : State} {port : Port} {source : Node}

theorem State.badSource_eq_true : s.badSource source = true ↔ source = 0 ∨ source = 65535 ∨ source = s.filter.ownNode := by
  simp [State.badSource, validNode, or_assoc]

/-- A kind that R148 does not accept at a port from a source: one that is only sent, one for the other port, a READY or DONE of
no robot, a REQUEST of another node than the controller. -/
theorem State.accepts_eq_false {k : TelegramKind} {o : Octet} (hk : o = k.code)
    (h : (o = 0x10 ∨ o = 0x11 ∨ o = 0x20 ∨ o = 0x21 ∨ o = 0x22 ∨ o = 0x23) ∨
      (port = .cell ∧ (o = 0x01 ∨ o = 0x02 ∨ o = 0x03)) ∨
      ((o = 0x12 ∨ o = 0x13) ∧ (port = .uplink ∨ ∀ g : SlotId, s.robotNode? g ≠ some source)) ∨
      (o = 0x03 ∧ ∃ c, s.filter.controllerNode = some c ∧ source ≠ c)) : s.accepts k port source = false := by
  have hrobot : (∀ g : SlotId, s.robotNode? g ≠ some source) → s.slotOfNode? source = none := State.slotOfNode?_eq_none.2
  subst hk
  cases k with
  | select | cancel | release | reply | notice | copy => rfl
  | announce | withdraw =>
    have hport : port = .cell := by simpa [TelegramKind.code] using h
    rw [hport]
    rfl
  | request =>
    have hport : port = .cell ∨ ∃ c, s.filter.controllerNode = some c ∧ source ≠ c := by
      simpa [TelegramKind.code] using h
    rcases hport with rfl | ⟨c, hc, hne⟩
    · rfl
    · simp [State.accepts, hc, Ne.symm hne]
  | ready | done =>
    have hport : port = .uplink ∨ ∀ g : SlotId, s.robotNode? g ≠ some source := by
      simpa [TelegramKind.code] using h
    rcases hport with rfl | hnone
    · rfl
    · simp [State.accepts, hrobot hnone]

end Conditions

/-! ## Telegrams that are frame errors -/

section Errors

variable {s : State} {source : Node} {tag : Tag}

/-- A good frame of the Protocol Type whose telegram for the own node fails a check of R147. -/
theorem exec_frameReceive_error {port : Port} {f : Frame} {t : Telegram} (ht : readTelegram f.payload = some t)
    (hown : t.destination = s.filter.ownNode) (hlen : 46 ≤ f.payload.length) (htype : f.etherType = s.filter.protocolType)
    (hup : s.linkUp port = true) (h : s.checkTelegram port t = none) :
    exec (.frameReceive port true f) s = .next (settleNotice s s.frameError) := by
  have herror : s.receiveFrame port true f = s.frameError := by
    simp [State.receiveFrame, State.sortFrame, hup, minimumPayload, hlen, htype, ht, hown, h]
  rw [exec_eq, effect, herror]

/-- A READY or DONE that is a frame error from any robot is one from any source. -/
theorem State.fromSource_frameError {k : TelegramKind} (hup : s.ports.cellUp = true) {take : State → SlotId → State}
    (h : ∀ g, take s g = s.frameError) : s.fromSource k .cell source (·.forRobot source take) = s.frameError := by
  rw [State.fromSource, if_pos (show s.linkUp .cell = true from hup)]
  unfold State.forRobot
  split
  · rfl
  · split
    · next g _ => exact h g
    · rfl

theorem exec_ready_malformed (hup : s.ports.cellUp = true) {verdict : Octet} (h1 : verdict ≠ 1) (h2 : verdict ≠ 2)
    (reason program : Octet) :
    exec (.ready source tag verdict reason program) s = .next (settleNotice s s.frameError) :=
  event_noticed (State.fromSource_frameError hup fun _ => if_pos ⟨h1, h2⟩)

theorem exec_done_malformed (hup : s.ports.cellUp = true) {quality dressed : Octet}
    (h : (quality ≠ 1 ∧ quality ≠ 2) ∨ 1 < dressed.toNat) (spots : Octet) :
    exec (.done source tag spots quality dressed) s = .next (settleNotice s s.frameError) :=
  event_noticed (State.fromSource_frameError hup fun _ => if_pos h)

end Errors

end Sys2Proof.Machine

section

open Sys2Proof Sys2Proof.Machine

/-- Settles O17: each condition is one of those under which `checkTelegram` finds no kind. -/
theorem frameErrorIsCountedAndDiscarded : Obligations.FrameErrorIsCountedAndDiscarded := by
  intro s source discarded least
  refine ⟨fun port version kind hi lo rest f hpayload hlen htype hup h => ?_,
    fun tag verdict reason program hup h1 h2 => exec_ready_malformed hup h1 h2 reason program,
    fun tag spots quality dressed hup h => exec_done_malformed hup h spots⟩
  have hread := hpayload ▸ readTelegram_header version kind hi lo s.filter.ownNode source rest
  have hsize : f.payload.length = telegramHeader + rest.length := by
    simp [hpayload, telegramHeader]
    omega
  have hbody : (hi ++ lo).toNat = 256 * hi.toNat + lo.toNat := by
    rw [toNat_join]
    omega
  refine exec_frameReceive_error hread rfl hlen htype hup (checkTelegram_eq_none.2 ?_)
  simp only [hbody, ← hsize, minimumPayload]
  rcases h with h | h | h | h
  · exact .inl h
  · exact .inr (.inl h)
  · exact .inr (.inr (.inl h))
  refine .inr (.inr (.inr fun k hk => ?_))
  have hcode := code_of_kindOf? hk
  rcases h with h | ⟨x, hx, hxk, hshort⟩ | h | h | h | h
  · exact absurd hcode (h _ (mem_leastBodies k))
  · exact .inl (by rw [minimumBody_of_mem_leastBodies x hx (hcode ▸ hxk)]; exact hshort)
  · exact .inr (.inl (State.badSource_eq_true.2 (.inl h)))
  · exact .inr (.inl (State.badSource_eq_true.2 (.inr (.inl h))))
  · exact .inr (.inl (State.badSource_eq_true.2 (.inr (.inr h))))
  · exact .inr (.inr (State.accepts_eq_false hcode (by simpa only [or_assoc] using h)))

end
end

section
/-! Transmissions (R100, R150, R153): the frame of an own telegram, the octets of SELECT, CANCEL and COPY (R189 to R191), and what
leaves each queue. -/

namespace Sys2Proof.Machine

open Octets

/-! ## Frames and octets (R153, R189 to R191) -/

theorem stationAddress_individual (p : Port) : (stationAddress p).getLsbD 40 = false := by
  have h : ∀ a : BitVec 48, (individual a).getLsbD 40 = false := fun a => by
    rw [individual, BitVec.getLsbD_and]
    exact Bool.and_false _
  cases p <;> exact h _

/-- An own telegram is padded to the Ethernet minimum of 46 octets, of which the header has 8. -/
theorem telegramFrame_eq (port : Port) (kind : Octet) (v : Envelope) (body : List Octet) :
    telegramFrame port kind v body =
      { dstAddr := 0xFFFFFFFFFFFF, srcAddr := stationAddress port, etherType := v.protocolType
        payload := [1, kind] ++ be2 (BitVec.ofNat 16 body.length) ++ be2 v.destination ++ be2 v.source ++ body ++
          List.replicate (38 - body.length) 0 } := by
  have hpad : 46 - ([1, kind] ++ nat2 body.length ++ be2 v.destination ++ be2 v.source ++ body).length =
      38 - body.length := by
    simp only [nat2, List.length_append, List.length_cons, List.length_nil, length_be2]
    omega
  rw [telegramFrame, telegramPayload]
  simp only [hpad]
  rfl

theorem octetOfBits_three (a b c : Bool) : octetOfBits [a, b, c] =
    (if a = true then 1 else 0) ||| (if b = true then 2 else 0) ||| (if c = true then 4 else 0) := by
  revert a b c
  decide

theorem selectOctets_eq (c : SelectContent) : selectOctets c =
    be2 c.tag ++ be4 c.bodyId ++ nat1 c.program ++
      [(if c.dry = true then 1 else 0) ||| (if c.dressRequest = true then 2 else 0) |||
        (if c.wearUnconfirmed = true then 4 else 0)] ++
      nat1 c.groups.length ++ c.groups.flatMap fun y =>
        nat1 y.schedule ++ nat1 y.spots ++ nat2 y.weldTime ++ nat2 y.current := by
  rw [selectOctets, octetOfBits_three, counted, ← List.append_assoc]
  rfl

theorem FaultKind.number_eq (k : FaultKind) : k.number.val =
    match k with
    | .readyTimeout => 0 | .readyRefused => 1 | .cycleTimeout => 2 | .shortCycle => 3 | .spotShortfall => 4
    | .qualityReject => 5 | .wearOverrun => 6 | .expansionError => 7 | .unknownStyle => 8 := by
  cases k <;> rfl

/-! ## What leaves a queue (R100, R150, R153) -/

section Departures

variable {s : State}

theorem State.cancelTransmit_of_cancel {x : CellTelegram} {tag : Tag} {rest : List CellTelegram}
    (hup : s.ports.cellUp = true) (hq : s.ports.cellOwn = x :: rest) (hb : x.body = .cancel tag) :
    s.cancelTransmit = s.takeCell x := by
  simp [State.cancelTransmit, State.cellFront?, hup, hq, hb]

theorem State.copyTransmit_of_copy {v : Envelope} {c : ChannelId} {st : StationId} {time : LineTime} {content : CopyContent}
    {rest : List UplinkTelegram} (hup : s.ports.uplinkUp = true)
    (hq : s.ports.uplinkOwn = .copy v c st time content :: rest) :
    s.copyTransmit = s.takeUplink (.copy v c st time content) := by
  simp [State.copyTransmit, State.uplinkFront?, hup, hq]

theorem exec_forwardTransmit_uplink {f : Frame} {rest : List Frame} (hq : s.ports.toUplink = f :: rest) :
    exec (.forwardTransmit .uplink) s = .next (if s.ports.uplinkUp = true ∧ s.ports.uplinkOwn = [] then
      { s with ports := { s.ports with toUplink := rest, uplinkTx := some f } } else s) := by
  have h : s.forwardTransmit .uplink = if s.ports.uplinkUp = true ∧ s.ports.uplinkOwn = [] then
      { s with ports := { s.ports with toUplink := rest, uplinkTx := some f } } else s := by
    simp only [State.forwardTransmit, hq, Bool.and_eq_true, List.isEmpty_iff]
    rfl
  rw [exec_eq, effect, h, settleNotice_quiet] <;> split <;> rfl

theorem exec_forwardTransmit_cell {f : Frame} {rest : List Frame} (hq : s.ports.toCell = f :: rest) :
    exec (.forwardTransmit .cell) s = .next (if s.ports.cellUp = true ∧ s.ports.cellOwn = [] then
      { s with ports := { s.ports with toCell := rest, cellTx := some f } } else s) := by
  have h : s.forwardTransmit .cell = if s.ports.cellUp = true ∧ s.ports.cellOwn = [] then
      { s with ports := { s.ports with toCell := rest, cellTx := some f } } else s := by
    simp only [State.forwardTransmit, hq, Bool.and_eq_true, List.isEmpty_iff]
    rfl
  rw [exec_eq, effect, h, settleNotice_quiet] <;> split <;> rfl

end Departures

end Sys2Proof.Machine

section

open Sys2Proof Sys2Proof.Machine

/-- Settles O18: the layouts, and for each queue what the transmitter takes from its front. -/
theorem transmittedFramesLeaveTheirQueues : Obligations.TransmittedFramesLeaveTheirQueues := by
  refine ⟨stationAddress_individual, fun _ => rfl, fun _ => rfl, fun _ => ⟨rfl, rfl, rfl⟩, telegramFrame_eq,
    fun x => ?_, fun c st time content => ?_, fun s => ⟨fun x tag rest hup hq hb => ?_,
      fun v c st time content rest hup hq => ?_, fun _ _ => exec_forwardTransmit_uplink,
      fun _ _ => exec_forwardTransmit_cell⟩⟩
  · rw [CellTelegram.frame]
    cases x.body with
    | select c => exact congrArg (telegramFrame .cell 0x10 x.envelope) (selectOctets_eq c)
    | cancel tag => rfl
  · cases content with
    | release r => rfl
    | slotDone bodyId e => rfl
    | slotFault bodyId position kind state faults =>
      rw [copyOctets, contentOctets, FaultKind.number_eq]
      rfl
  · exact event_eq ((State.cancelTransmit_of_cancel hup hq hb).trans (State.takeCell_of_front hq)) rfl rfl
  · refine event_eq ((State.copyTransmit_of_copy hup hq).trans ?_) rfl rfl
    simp only [State.takeUplink, hq]
    rfl

end
end

section
/-! SET FAULT MODES (R122 to R124): the octets of kinds and modes, the lists of pairs that are refused, and the modes that a list
of pairs writes. -/

namespace Sys2Proof.Machine

/-! ## The octets of kinds and modes (R192) -/

theorem faultKindOf?_eq (o : Octet) : faultKindOf? o = allKinds[o.toNat]? := by
  unfold faultKindOf? allKinds
  match o.toNat with
  | 0 | 1 | 2 | 3 | 4 | 5 | 6 | 7 | 8 | n + 9 => rfl

theorem modeOf?_eq (o : Octet) : modeOf? o = [FaultMode.hold, .pass, .warn, .off][o.toNat]? := by
  unfold modeOf?
  match o.toNat with
  | 0 | 1 | 2 | 3 | n + 4 => rfl

/-- The octets of a pair of SET FAULT MODES. -/
def pairOctets (x : FaultKind × FaultMode) : Octet × Octet := (BitVec.ofNat 8 x.1.number.val, BitVec.ofNat 8 x.2.code)

theorem faultKindOf?_eq_some {o : Octet} {k : FaultKind} : faultKindOf? o = some k ↔ o = BitVec.ofNat 8 k.number.val := by
  constructor
  · intro h
    apply BitVec.eq_of_toNat_eq
    unfold faultKindOf? at h
    split at h <;> cases h <;> assumption
  · rintro rfl
    cases k <;> rfl

theorem modeOf?_eq_some {o : Octet} {m : FaultMode} : modeOf? o = some m ↔ o = BitVec.ofNat 8 m.code := by
  constructor
  · intro h
    apply BitVec.eq_of_toNat_eq
    unfold modeOf? at h
    split at h <;> cases h <;> assumption
  · rintro rfl
    cases m <;> rfl

/-- A list of octets names pairs exactly where it is made of their octets. -/
theorem modePairs?_eq_some {octets : List (Octet × Octet)} {pairs : List (FaultKind × FaultMode)} :
    modePairs? octets = some pairs ↔ octets = pairs.map pairOctets := by
  unfold modePairs?
  induction octets generalizing pairs with
  | nil => cases pairs <;> simp
  | cons x rest ih =>
    simp only [List.mapM_cons, Option.bind_eq_bind, Option.bind_eq_some_iff, Option.pure_def, Option.some.injEq,
      faultKindOf?_eq_some, modeOf?_eq_some]
    constructor
    · rintro ⟨_, ⟨k, hk, m, hm, rfl⟩, l, hl, rfl⟩
      exact congrArg₂ List.cons (Prod.ext hk hm) (ih.1 hl)
    · intro h
      cases pairs with
      | nil => cases h
      | cons y l =>
        obtain ⟨rfl, hl⟩ := List.cons.inj h
        exact ⟨y, ⟨y.1, rfl, y.2, rfl, rfl⟩, l, ih.2 hl, rfl⟩

theorem FaultKind.octet_injective : Function.Injective fun k : FaultKind => BitVec.ofNat 8 k.number.val := fun k _ h =>
  Option.some.inj ((faultKindOf?_eq_some (k := k).2 rfl).symm.trans (faultKindOf?_eq_some.2 h))

/-! ## Which lists are refused (R124) -/

theorem pairsAllowed_iff {pairs : List (FaultKind × FaultMode)} : pairsAllowed pairs = true ↔
    1 ≤ pairs.length ∧ pairs.length ≤ 9 ∧ (∀ x ∈ pairs, x.1.allows x.2 = true) ∧ (pairs.map (·.1)).Nodup := by
  simp only [pairsAllowed, Bool.and_eq_true, decide_eq_true_eq, List.all_eq_true, and_assoc]

/-- The octets of a list that is allowed: neither none nor too many, defined, no kind twice, and each mode allowed. -/
theorem octets_of_pairsAllowed {pairs : List (FaultKind × FaultMode)} (h : pairsAllowed pairs = true) :
    let octets := pairs.map pairOctets
    octets ≠ [] ∧ octets.length ≤ 9 ∧ (octets.map (·.1)).Nodup ∧
      ∀ x ∈ octets, ∃ k m, faultKindOf? x.1 = some k ∧ modeOf? x.2 = some m ∧ k.allows m = true := by
  obtain ⟨h1, h9, hallow, hnodup⟩ := pairsAllowed_iff.1 h
  refine ⟨fun he => ?_, by simpa using h9, ?_, fun x hx => ?_⟩
  · rw [List.map_eq_nil_iff.1 he] at h1
    cases h1
  · have := hnodup.map FaultKind.octet_injective
    rwa [List.map_map] at this ⊢
  · obtain ⟨y, hy, rfl⟩ := List.mem_map.1 hx
    exact ⟨y.1, y.2, faultKindOf?_eq_some.2 rfl, modeOf?_eq_some.2 rfl, hallow y hy⟩

/-- A station octet that is undefined, or octets that no list of allowed pairs is made of. -/
theorem State.answerSetFaultModes_of_refused (s : State) {station : Octet} {octets : List (Octet × Octet)}
    (h : ∀ st pairs, stationOf? station = some st → octets = pairs.map pairOctets → pairsAllowed pairs = false) :
    s.answerSetFaultModes station octets = s.result .badParameter := by
  unfold State.answerSetFaultModes
  split
  · next st pairs hst hp => rw [h st pairs hst (modePairs?_eq_some.1 hp), if_neg Bool.false_ne_true]
  · rfl

/-! ## The modes written (R122) -/

/-- A kind that no pair names keeps its mode. -/
theorem getElem_writeModes_of_ne {pairs : List (FaultKind × FaultMode)} {k : FaultKind} (h : ∀ x ∈ pairs, x.1 ≠ k)
    (modes : Vector FaultMode 9) : (writeModes modes pairs)[k.number] = modes[k.number] := by
  unfold writeModes
  induction pairs generalizing modes with
  | nil => rfl
  | cons x rest ih =>
    have hne : x.1.number.val ≠ k.number.val := fun e => h x List.mem_cons_self (FaultKind.number_injective (Fin.ext e))
    exact (ih (fun y hy => h y (List.mem_cons_of_mem _ hy)) _).trans (Vector.getElem_set_ne _ _ hne)

/-- A kind that one pair names has that pair's mode. -/
theorem getElem_writeModes_of_mem {pairs : List (FaultKind × FaultMode)} (hn : (pairs.map (·.1)).Nodup)
    {x : FaultKind × FaultMode} (hx : x ∈ pairs) (modes : Vector FaultMode 9) :
    (writeModes modes pairs)[x.1.number] = x.2 := by
  induction pairs generalizing modes with
  | nil => cases hx
  | cons y rest ih =>
    obtain ⟨hy, hrest⟩ := List.nodup_cons.1 hn
    rcases List.mem_cons.1 hx with rfl | hx
    · have hne : ∀ z ∈ rest, z.1 ≠ x.1 := fun z hz e => hy (List.mem_map.2 ⟨z, hz, e⟩)
      exact (getElem_writeModes_of_ne hne _).trans (Vector.getElem_set_self _)
    · exact ih hrest hx _

end Sys2Proof.Machine

section

open Sys2Proof Sys2Proof.Machine

/-- Settles O49: the octets of a list that is taken are those of its pairs (`modePairs?_eq_some`), written one by one. -/
theorem setFaultModesWritesTheNamedModes : Obligations.SetFaultModesWritesTheNamedModes := by
  refine ⟨fun k m => ?_, fun o => ⟨faultKindOf?_eq o, modeOf?_eq o⟩, fun k m =>
    ⟨faultKindOf?_eq_some.2 rfl, modeOf?_eq_some.2 rfl, by cases k <;> decide⟩, fun s e station octets h =>
    ⟨fun hbad => ?_, fun st pairs hst ho h1 h9 hallow hnodup => ?_⟩⟩
  · cases k <;> simp [FaultKind.allows]
  · refine event_of_executes_refused h (s.answerSetFaultModes_of_refused fun st pairs hst ho => ?_)
    by_contra hp
    obtain ⟨hne, hlen, hnodup, hdefined⟩ := octets_of_pairsAllowed (Bool.eq_true_of_not_eq_false hp)
    rw [← ho] at hne hlen hnodup hdefined
    have hlt := st.isLt
    rw [← stationOf?_eq_some.1 hst] at hlt
    rcases hbad with hb | hb | hb | ⟨x, hx, hb⟩ | hb | ⟨x, hx, k, m, hk, hm, hb⟩
    · omega
    · exact hne hb
    · omega
    · obtain ⟨k, m, hk, hm, -⟩ := hdefined x hx
      simp [hk, hm] at hb
    · exact hb hnodup
    · obtain ⟨k', m', hk', hm', ha⟩ := hdefined x hx
      cases hk.symm.trans hk'
      cases hm.symm.trans hm'
      exact Bool.false_ne_true (hb.symm.trans ha)
  · refine ⟨writeModes (s.station st).modes pairs, event_answer h ?_ rfl rfl,
      fun x hx => getElem_writeModes_of_mem hnodup hx _, fun k _ hk => getElem_writeModes_of_ne hk _⟩
    unfold State.answerSetFaultModes
    rw [stationOf?_eq_some.2 hst, modePairs?_eq_some.2 ho]
    exact if_pos (pairsAllowed_iff.2 ⟨h1, h9, hallow, hnodup⟩)

end
end

section
/-! The units of a load (R183), one equation for each: the header, the configuration part with checks 2 and 3 of CONFIGURE, a record,
and the end of the payload. -/

namespace Sys2Proof.Machine

/-! ## The checks of a shape (R162) -/

/-- Checks 2 and 3 of CONFIGURE: counts, Protocol Type and nodes in range, and no two nodes equal. -/
def Shape.Sound (x : Shape) : Prop :=
  let nodes := x.own :: x.controller :: (x.tracker.toList ++ x.robotNodes)
  1 ≤ x.stationCount ∧ x.stationCount ≤ 4 ∧ x.slotCounts.length = x.stationCount ∧
    (∀ y ∈ x.slotCounts, 1 ≤ y ∧ y ≤ 8) ∧ x.robotNodes.length = x.slotCounts.sum ∧ 0x0600 ≤ x.protocolType.toNat ∧
    (∀ y ∈ nodes, y ≠ 0 ∧ y ≠ 65535) ∧ nodes.Nodup

theorem validNode_iff {n : Node} : validNode n = true ↔ n ≠ 0 ∧ n ≠ 65535 := by
  simp only [validNode, Bool.and_eq_true, bne_iff_ne]

theorem Shape.sound_iff (x : Shape) : (x.inRange && x.distinct) = true ↔ x.Sound := by
  have tracker : x.tracker.all validNode = true ↔ ∀ y ∈ x.tracker.toList, y ≠ 0 ∧ y ≠ 65535 := by
    cases x.tracker <;> simp [validNode_iff]
  simp only [Shape.inRange, Shape.distinct, Shape.Sound, Bool.and_eq_true, decide_eq_true_eq, beq_iff_eq, List.all_eq_true,
    validNode_iff, tracker, List.forall_mem_cons, List.forall_mem_append, and_assoc]

/-! ## The header and the configuration part -/

section Units

variable {flash : List Octet} {l : Loader} {t : Tables} {h : ImageHeader}

theorem loadUnit_header_of_some (hp : l.phase = .header) (hr : readHeader (flashRead flash 0 25) = some h) :
    loadUnit flash (l, t) = ({ l with header := some h, phase := .config, position := 25 }, t) := by
  simp only [loadUnit, hp, headerLength, hr]

theorem loadUnit_header_of_none (hp : l.phase = .header) (hr : readHeader (flashRead flash 0 25) = none) :
    loadUnit flash (l, t) = (l.fail, t) := by
  simp only [loadUnit, hp, headerLength, hr]

/-- The octets of a configuration part hold a configuration that fills them and passes checks 2 and 3 of CONFIGURE. -/
def ConfigApplies (os : List Octet) (c : ImageConfig) : Prop := readConfig os = some (c, []) ∧ c.shape.Sound

theorem loadUnit_config_of_applies {c : ImageConfig} (hp : l.phase = .config) (hh : l.header = some h)
    (hc : ConfigApplies (flashRead flash l.position h.configLength) c) : loadUnit flash (l, t) =
      ({ l with
          config := some c, sum := l.sum + octetSum (flashRead flash l.position h.configLength), phase := .records
          position := l.position + h.configLength }, t) := by
  obtain ⟨hr, hs⟩ := hc
  simp only [loadUnit, hp, hh, hr, if_pos (c.shape.sound_iff.2 hs)]

theorem loadUnit_config_of_not_applies (hp : l.phase = .config) (hh : l.header = some h)
    (hc : ∀ c, ¬ConfigApplies (flashRead flash l.position h.configLength) c) : loadUnit flash (l, t) = (l.fail, t) := by
  simp only [loadUnit, hp, hh]
  split
  · next c hr => exact if_neg fun hs => hc c ⟨hr, c.shape.sound_iff.1 hs⟩
  · rfl
  · rfl

/-! ## The records and the end of the payload -/

/-- A unit among the records, by where the payload ends: the last octet of the payload is the adjustment octet. -/
theorem loadUnit_records (t : Tables) (hp : l.phase = .records) (hh : l.header = some h) : loadUnit flash (l, t) =
    if l.position + 1 < 25 + h.payloadLength then loadRecord flash l t
    else if l.position + 1 = 25 + h.payloadLength then (loadFinish flash l h, t)
    else (l.fail, t) := by
  simp only [loadUnit, hp, hh]
  rfl

theorem loadUnit_record (hp : l.phase = .records) (hh : l.header = some h)
    (hl : l.position + 1 < 25 + h.payloadLength) : loadUnit flash (l, t) = loadRecord flash l t :=
  (loadUnit_records t hp hh).trans (if_pos hl)

theorem loadUnit_finish (hp : l.phase = .records) (hh : l.header = some h)
    (hl : l.position + 1 = 25 + h.payloadLength) : loadUnit flash (l, t) = (loadFinish flash l h, t) := by
  rw [loadUnit_records t hp hh, if_neg hl.not_lt, if_pos hl]

theorem loadUnit_overrun (hp : l.phase = .records) (hh : l.header = some h)
    (hl : 25 + h.payloadLength < l.position + 1) : loadUnit flash (l, t) = (l.fail, t) := by
  rw [loadUnit_records t hp hh, if_neg (Nat.lt_asymm hl), if_neg hl.ne']

theorem loadFinish_eq (flash : List Octet) (l : Loader) (h : ImageHeader) :
    let sum := l.sum + octetSum (flashRead flash l.position 1)
    loadFinish flash l h =
      { l with
        sum := sum
        position := l.position + 1
        phase := if l.counts = h.recordCounts ∧ sum = h.checksum ∧ h.checksum ≠ 65535 then .passed else .failed } := by
  simp only [loadFinish]
  split <;> rfl

/-! ## One record -/

/-- A load that has read a record of some octets, the entry of a table at an index. -/
def Loader.recordRead (flash : List Octet) (l : Loader) (k : TableId) (i length : Nat) : Loader :=
  { l with
    sum := l.sum + octetSum (flashRead flash l.position length)
    counts := l.counts.set k.number (l.counts[k.number] + 1)
    position := l.position + length
    seen := (k, i) :: l.seen }

theorem tableOf?_of_number {o : Octet} {k : TableId} (h : o.toNat = k.number.val) : tableOf? o = some k := by
  unfold tableOf?
  rw [h]
  cases k <;> rfl

theorem tableOf?_of_undefined {o : Octet} (h : 5 < o.toNat) : tableOf? o = none := by
  obtain ⟨n, hn⟩ := Nat.exists_eq_add_of_le' h
  unfold tableOf?
  rw [hn]
  rfl

variable {table hi lo : Octet} {fields : List Octet} {k : TableId}

theorem loadRecord_of_no_table (hf : flashRead flash l.position 1024 = table :: hi :: lo :: fields)
    (ht : tableOf? table = none) : loadRecord flash l t = (l.fail, t) := by
  simp only [loadRecord, recordSpan, hf, ht]

/-- An index out of range, or read before, ends the load. -/
theorem loadRecord_of_bad_index (hf : flashRead flash l.position 1024 = table :: hi :: lo :: fields)
    (ht : tableOf? table = some k) (hi : k.inRange (hi ++ lo).toNat = false ∨ (k, (hi ++ lo).toNat) ∈ l.seen) :
    loadRecord flash l t = (l.fail, t) := by
  simp only [loadRecord, recordSpan, hf, ht]
  refine if_pos ?_
  rcases hi with hi | hi <;> simp [hi]

/-- Fields that run short, or that fail a check of their own, end the load. -/
theorem loadRecord_of_bad_fields (hf : flashRead flash l.position 1024 = table :: hi :: lo :: fields)
    (ht : tableOf? table = some k) (hr : ∀ r rest, readFields k fields ≠ some (.ok r, rest)) :
    loadRecord flash l t = (l.fail, t) := by
  simp only [loadRecord, recordSpan, hf, ht]
  split
  · rfl
  · split
    · next r rest h => exact absurd h (hr r rest)
    · rfl
    · rfl

/-- A record that fails a check against the directory ends the load. -/
theorem loadRecord_of_failure (hf : flashRead flash l.position 1024 = table :: hi :: lo :: fields)
    (ht : tableOf? table = some k) {r : Record} {rest : List Octet} (hr : readFields k fields = some (.ok r, rest))
    (hfail : ∃ j check, recordFails t (hi ++ lo).toNat [.ok (some r)] j check) : loadRecord flash l t = (l.fail, t) := by
  have hsome : (firstFailure t (hi ++ lo).toNat [.ok (some r)]).isSome = true := by
    rw [Option.isSome_iff_ne_none, Ne, firstFailure_eq_none]
    obtain ⟨j, check, hj⟩ := hfail
    exact fun hn => hn j check hj
  simp only [loadRecord, recordSpan, hf, ht, hr, if_pos hsome, ite_self]

/-- A record that passes is written at once. -/
theorem loadRecord_of_passed (hf : flashRead flash l.position 1024 = table :: hi :: lo :: fields)
    (ht : tableOf? table = some k) (hrange : k.inRange (hi ++ lo).toNat = true) (hseen : (k, (hi ++ lo).toNat) ∉ l.seen)
    {r : Record} {rest : List Octet} (hr : readFields k fields = some (.ok r, rest))
    (hpass : ∀ j check, ¬recordFails t (hi ++ lo).toNat [.ok (some r)] j check) : loadRecord flash l t =
      (l.recordRead flash k (hi ++ lo).toNat (3 + (fields.length - rest.length)),
        t.putRecord k (hi ++ lo).toNat (some r)) := by
  simp only [loadRecord, recordSpan, hf, ht, hr, firstFailure_eq_none.2 hpass, hrange]
  rw [if_neg (by simpa using hseen)]
  rfl

/-- What one record makes of a load: it fails, or an entry not read before has been read. -/
theorem loadRecord_reads (flash : List Octet) (l : Loader) (t : Tables) : (loadRecord flash l t).1 = l.fail ∨
    ∃ k i length, (k, i) ∉ l.seen ∧ (loadRecord flash l t).1 = l.recordRead flash k i length := by
  unfold loadRecord
  split
  · next table hi lo fields _ =>
    split
    · exact .inl rfl
    · next k _ =>
      dsimp only
      split
      · exact .inl rfl
      · next hn =>
        split
        · next rest _ =>
          split
          · exact .inl rfl
          · exact .inr ⟨k, (hi ++ lo).toNat, 3 + (fields.length - rest.length), by simp_all, rfl⟩
        · exact .inl rfl
        · exact .inl rfl
  · exact .inl rfl

end Units

end Sys2Proof.Machine
end

section
/-! What a load that has passed has read (R183): its header, its configuration part, each record once, and the sum of its payload. -/

namespace Sys2Proof.Machine

/-! ## Runs of flash octets and their sum (R181) -/

theorem flashRead_append (flash : List Octet) (offset n m : Nat) :
    flashRead flash offset (n + m) = flashRead flash offset n ++ flashRead flash (offset + n) m := by
  simp only [flashRead_eq, List.range_add, List.map_append, List.map_map, Function.comp_def, Nat.add_assoc]

theorem octetSum_append (os os' : List Octet) : octetSum (os ++ os') = octetSum os + octetSum os' := by
  simp only [octetSum, List.map_append, List.sum_append, BitVec.ofNat_add]

/-- The sum of a run of octets from 25 on, carried on by some more. -/
theorem octetSum_flashRead_add (flash : List Octet) {position : Nat} (hp : 25 ≤ position) (n : Nat) :
    octetSum (flashRead flash 25 (position - 25)) + octetSum (flashRead flash position n) =
      octetSum (flashRead flash 25 (position + n - 25)) := by
  rw [Nat.sub_add_comm hp, flashRead_append, octetSum_append, Nat.add_sub_cancel' hp]

/-- A header that is read begins with the format mark and the version. -/
theorem flashRead_mark {flash : List Octet} {h : ImageHeader} (hr : readHeader (flashRead flash 0 25) = some h) :
    flashRead flash 0 5 = [0x5C, 0x41, 0x60, 0xA7, 1] := by
  obtain ⟨counts, config, payload, checksum, rest, ho, -⟩ := readHeader_eq_some.1 hr
  have hlen : (flashRead flash 0 5).length = 5 := by simp [flashRead_eq]
  rw [show 25 = 5 + 20 from rfl, flashRead_append] at ho
  simp only [List.append_assoc] at ho
  exact (List.append_inj ho hlen).1

/-! ## The records counted -/

theorem TableId.number_injective {k k' : TableId} (h : k.number = k'.number) : k = k' := by
  have ho : (BitVec.ofNat 8 k.number.val : Octet).toNat = k.number.val := Nat.mod_eq_of_lt (by omega)
  exact Option.some.inj ((tableOf?_of_number ho).symm.trans (tableOf?_of_number (ho.trans (congrArg Fin.val h))))

/-- Every record read stands in the list of those read once, and is counted for its table. -/
structure Loader.Tallied (l : Loader) : Prop where
  nodup : l.seen.Nodup
  counts : ∀ k : TableId, l.seen.countP (fun x => x.1 == k) = l.counts[k.number]

theorem Loader.tallied_start (a : LoaderActivity) : (Loader.start a).Tallied where
  nodup := .nil
  counts := fun k => by cases k <;> rfl

theorem Loader.Tallied.of_eq {l m : Loader} (hl : l.Tallied) (hs : m.seen = l.seen) (hc : m.counts = l.counts) :
    m.Tallied where
  nodup := hs ▸ hl.nodup
  counts := fun k => by rw [hs, hc, hl.counts]

theorem Loader.Tallied.recordRead {l : Loader} (hl : l.Tallied) (flash : List Octet) {k : TableId} {i : Nat}
    (hn : (k, i) ∉ l.seen) (length : Nat) : (l.recordRead flash k i length).Tallied where
  nodup := List.nodup_cons.2 ⟨hn, hl.nodup⟩
  counts := fun k' => by
    simp only [Loader.recordRead, List.countP_cons, hl.counts]
    by_cases hk : k = k'
    · subst hk
      simp
    · have hne : k.number.val ≠ k'.number.val := fun e => hk (TableId.number_injective (Fin.ext e))
      simp [hk, Vector.getElem_set_ne _ _ hne]

/-! ## What a load has read so far -/

/-- A load holds a header and a configuration, and the flash holds both. -/
structure Loader.Holds (flash : List Octet) (l : Loader) (h : ImageHeader) (c : ImageConfig) : Prop where
  header : l.header = some h
  config : l.config = some c
  headerRead : readHeader (flashRead flash 0 25) = some h
  configApplies : ConfigApplies (flashRead flash 25 h.configLength) c

/-- What a load that has not failed has read of the flash, by its phase; among the records the running sum is that of the
payload before its position. -/
inductive Loader.HasRead (flash : List Octet) (l : Loader) : Prop where
  | header (phase : l.phase = .header) (tally : l.Tallied) (sum : l.sum = 0)
  | config (h : ImageHeader) (phase : l.phase = .config) (tally : l.Tallied) (header : l.header = some h)
      (headerRead : readHeader (flashRead flash 0 25) = some h) (position : l.position = 25) (sum : l.sum = 0)
  | records (h : ImageHeader) (c : ImageConfig) (phase : l.phase = .records) (tally : l.Tallied) (holds : l.Holds flash h c)
      (position : 25 ≤ l.position) (sum : l.sum = octetSum (flashRead flash 25 (l.position - 25)))
  | passed (h : ImageHeader) (c : ImageConfig) (phase : l.phase = .passed) (tally : l.Tallied) (holds : l.Holds flash h c)
      (counts : l.counts = h.recordCounts) (checksum : octetSum (flashRead flash 25 h.payloadLength) = h.checksum)
      (valid : h.checksum ≠ 65535)
  | failed (phase : l.phase = .failed)

section Reading

variable {flash : List Octet} {l : Loader} {h : ImageHeader} {c : ImageConfig}

theorem Loader.Holds.of_eq {m : Loader} (hl : l.Holds flash h c) (hh : m.header = l.header) (hc : m.config = l.config) :
    m.Holds flash h c :=
  ⟨hh.trans hl.header, hc.trans hl.config, hl.headerRead, hl.configApplies⟩

theorem Loader.hasRead_fail (l : Loader) : l.fail.HasRead flash := .failed rfl

/-- A record read, or one that ends the load. -/
theorem hasRead_loadRecord (hp : l.phase = .records) (ht : l.Tallied) (hl : l.Holds flash h c) (hpos : 25 ≤ l.position)
    (hs : l.sum = octetSum (flashRead flash 25 (l.position - 25))) (t : Tables) :
    (loadRecord flash l t).1.HasRead flash := by
  rcases loadRecord_reads flash l t with hf | ⟨k, i, length, hn, hr⟩
  · rw [hf]
    exact l.hasRead_fail
  · rw [hr]
    refine .records h c hp (ht.recordRead flash hn length) (hl.of_eq rfl rfl) (hpos.trans (Nat.le_add_right _ _)) ?_
    simp only [Loader.recordRead]
    rw [hs, octetSum_flashRead_add flash hpos]

/-- The end of the payload, where the load passes or fails. -/
theorem hasRead_loadFinish (ht : l.Tallied) (hl : l.Holds flash h c) (hpos : 25 ≤ l.position)
    (hs : l.sum = octetSum (flashRead flash 25 (l.position - 25))) (hend : l.position + 1 = 25 + h.payloadLength) :
    (loadFinish flash l h).HasRead flash := by
  rw [loadFinish_eq, hs, octetSum_flashRead_add flash hpos, hend, Nat.add_sub_cancel_left]
  by_cases hc : l.counts = h.recordCounts ∧ octetSum (flashRead flash 25 h.payloadLength) = h.checksum ∧ h.checksum ≠ 65535
  · obtain ⟨h1, h2, h3⟩ := hc
    exact .passed h c (if_pos ⟨h1, h2, h3⟩) (ht.of_eq rfl rfl) (hl.of_eq rfl rfl) h1 h2 h3
  · exact .failed (if_neg hc)

theorem hasRead_loadUnit (t : Tables) (hl : l.HasRead flash) : (loadUnit flash (l, t)).1.HasRead flash := by
  cases hl with
  | header hp ht hs =>
    cases hr : readHeader (flashRead flash 0 25) with
    | none =>
      rw [loadUnit_header_of_none hp hr]
      exact l.hasRead_fail
    | some h =>
      rw [loadUnit_header_of_some hp hr]
      exact .config h rfl (ht.of_eq rfl rfl) rfl hr rfl hs
  | config h hp ht hh hr hpos hs =>
    by_cases hc : ∃ c, ConfigApplies (flashRead flash l.position h.configLength) c
    · obtain ⟨c, hc⟩ := hc
      rw [loadUnit_config_of_applies hp hh hc, hs, hpos]
      rw [hpos] at hc
      refine .records h c rfl (ht.of_eq rfl rfl) ⟨hh, rfl, hr, hc⟩ (Nat.le_add_right _ _) ?_
      simp only [Nat.add_sub_cancel_left, zero_add]
    · rw [loadUnit_config_of_not_applies hp hh (not_exists.1 hc)]
      exact l.hasRead_fail
  | records h c hp ht hl hpos hs =>
    rcases Nat.lt_trichotomy (l.position + 1) (25 + h.payloadLength) with hlt | heq | hgt
    · rw [loadUnit_record hp hl.header hlt]
      exact hasRead_loadRecord hp ht hl hpos hs t
    · rw [loadUnit_finish hp hl.header heq]
      exact hasRead_loadFinish ht hl hpos hs heq
    · rw [loadUnit_overrun hp hl.header hgt]
      exact l.hasRead_fail
  | passed h c hp ht hl h1 h2 h3 =>
    rw [loadUnit_ended (.inl hp)]
    exact .passed h c hp ht hl h1 h2 h3
  | failed hp =>
    rw [loadUnit_ended (.inr hp)]
    exact .failed hp

end Reading

/-- The units of a load, from its start on, have read what its phase says. -/
theorem hasRead_iterate_loadUnit (flash : List Octet) (n : Nat) (a : LoaderActivity) (t : Tables) :
    ((loadUnit flash)^[n] (Loader.start a, t)).1.HasRead flash := by
  induction n with
  | zero => exact .header rfl (Loader.tallied_start a) rfl
  | succ n ih =>
    rw [Function.iterate_succ_apply']
    exact hasRead_loadUnit _ ih

/-- What a load that has passed has read. -/
theorem Loader.HasRead.of_passed {flash : List Octet} {l : Loader} (hl : l.HasRead flash) (hp : l.phase = .passed) :
    ∃ h c, l.Holds flash h c ∧ l.Tallied ∧ l.counts = h.recordCounts ∧
      octetSum (flashRead flash 25 h.payloadLength) = h.checksum ∧ h.checksum ≠ 65535 := by
  cases hl with
  | passed h c _ ht hl h1 h2 h3 => exact ⟨h, c, hl, ht, h1, h2, h3⟩
  | header hq | config _ hq | records _ _ hq | failed hq => cases hp.symm.trans hq

end Sys2Proof.Machine
end

section
/-! How a LOAD IMAGE ends (R134, R184, R187): what the load has written, the configuration it applies, and the stations' tests where
a Section Hold ends by it. -/

namespace Sys2Proof.Machine

/-! ## What a load writes (R183) -/

theorem Banks.setTables_self (x : Banks) (i : BankId) : x.setTables i (x.tables i) = x := by cases i <;> rfl

/-- The rest of a load writes the Image Loader and its target. -/
theorem State.finishLoad_writes (s : State) (answers : Bool) : ∃ l b,
    s.finishLoad answers = { s with loader := l, banks := s.banks.setTables s.loadTarget b } := by
  unfold State.finishLoad
  split
  · exact ⟨_, _, rfl⟩
  · split
    · exact ⟨s.loader, s.banks.tables s.loadTarget, by rw [Banks.setTables_self]⟩
    · exact ⟨s.loader.fail, s.banks.tables s.loadTarget, by rw [Banks.setTables_self]; rfl⟩

/-- It writes nothing else. -/
theorem State.finishLoad_eq (s : State) (answers : Bool) : s.finishLoad answers =
    { s with
      loader := (s.finishLoad answers).loader
      banks := s.banks.setTables s.loadTarget ((s.finishLoad answers).banks.tables s.loadTarget) } := by
  obtain ⟨l, b, h⟩ := s.finishLoad_writes answers
  rw [h]
  simp only [Banks.tables_setTables, if_true]

/-! ## The configuration applied (R184) -/

theorem State.quiet_iff (s : State) : s.quiet = true ↔
    ∀ st : StationId, (s.station st).state = .offline ∧ (s.station st).queue = [] := by
  simp only [State.quiet, List.all_eq_true, Bool.and_eq_true, beq_iff_eq, List.isEmpty_iff, Vector.mem_toList_iff,
    Vector.mem_iff_getElem, State.station]
  exact ⟨fun h st => h _ ⟨st.val, st.isLt, rfl⟩, fun h x ⟨i, hi, hx⟩ => hx ▸ h ⟨i, hi⟩⟩

/-- A configuration applied as a LOAD IMAGE in COMMISSIONING applies it: the shape too where every station is OFFLINE and empty. -/
theorem State.applyConfig_quiet (s : State) (c : ImageConfig) : s.applyConfig c s.quiet =
    if ∀ st : StationId, (s.station st).state = .offline ∧ (s.station st).queue = [] then (s.shaped c.shape).adjusted c true
    else s.adjusted c false := by
  unfold State.applyConfig
  rw [State.applyShape_eq, State.applySettings_eq]
  split
  · next h => rw [h, if_pos (s.quiet_iff.1 h)]
  · next h => rw [Bool.eq_false_of_not_eq_true h, if_neg (mt s.quiet_iff.2 h)]

/-- The slot whose gun limits an image gives, in ascending global slot order over the slots of its shape. -/
theorem imageLimits?_eq (c : ImageConfig) (g : SlotId) : imageLimits? c g =
    if (stationOf g).val < c.shape.stationCount ∧
        (positionOf g).val < (c.shape.slotCounts[(stationOf g).val]?).getD 0 then
      c.guns[(c.shape.slotCounts.take (stationOf g).val).sum + (positionOf g).val]?
    else none := by
  have hc : c.shape.counts[stationOf g] =
      if (stationOf g).val < c.shape.stationCount then (c.shape.slotCounts[(stationOf g).val]?).getD 0 else 0 := by
    simp only [Shape.counts, tabulate, Fin.getElem_fin, Vector.getElem_ofFn, List.getD_eq_getElem?_getD]
  unfold imageLimits?
  refine if_congr ?_ rfl rfl
  rw [hc]
  split
  · next h => simp only [h, true_and]
  · next h => simp only [h, false_and, Nat.not_lt_zero]

/-! ## The end (R187) -/

theorem exec_loadImageEnd {s : State} (hr : s.running .loadImage = true) (answers : Bool) :
    exec (.loadImageEnd answers) s = .next (settleNotice s (s.finishLoad answers).loadEnds) := by
  rw [exec_eq, effect, State.endLoad, if_pos hr]

/-- A LOAD IMAGE that fails keeps what it has written, and marks the bank. -/
theorem State.loadEnds_of_not_passed {s : State} (h : s.loader.phase ≠ .passed) : s.loadEnds =
    { s with
      banks := { s.banks with loadIncomplete := true }
      loader := Loader.start .idle
      events := { s.events with flags := s.events.flags ||| (1#29 <<< 13) }
      agent := { s.agent with longOp := none } } := if_neg h

/-- What a LOAD IMAGE that passes writes beside the configuration it applies. -/
def State.imageLoaded (s : State) : State :=
  { s with
    banks := { s.banks with loadIncomplete := false }
    loader := Loader.start .idle
    events := { s.events with flags := s.events.flags ||| (1#29 <<< 12) }
    agent := { s.agent with longOp := none } }

theorem State.loadEnds_of_passed {s : State} (h : s.loader.phase = .passed) : s.loadEnds = s.applyLoaded.imageLoaded :=
  if_pos h

theorem State.loadEnds_of_live {s : State} (h : s.loader.phase = .passed) (hlive : s.agent.partState = .live) :
    s.loadEnds = s.imageLoaded := by
  rw [State.loadEnds_of_passed h]
  simp only [State.applyLoaded, hlive]

section Commissioning

variable {s : State} {c : ImageConfig}

/-- In COMMISSIONING the configuration is applied, and every station tested where a Section Hold ends by it. -/
theorem State.loadEnds_of_commissioning (h : s.loader.phase = .passed) (hcom : s.agent.partState = .commissioning)
    (hc : s.loader.config = some c) : s.loadEnds =
      (testAfterHold s (s.applyConfig c s.quiet) (s.applyConfig c s.quiet)).imageLoaded := by
  rw [State.loadEnds_of_passed h]
  simp only [State.applyLoaded, hcom, hc]

theorem State.loadEnds_of_no_end (h : s.loader.phase = .passed) (hcom : s.agent.partState = .commissioning)
    (hc : s.loader.config = some c) (hold : s.sectionHold = false ∨ (s.applyConfig c s.quiet).sectionHold = true) :
    s.loadEnds = (s.applyConfig c s.quiet).imageLoaded := by
  rw [State.loadEnds_of_commissioning h hcom hc, testAfterHold, if_neg]
  rcases hold with hold | hold <;> simp [hold]

theorem State.loadEnds_of_end (h : s.loader.phase = .passed) (hcom : s.agent.partState = .commissioning)
    (hc : s.loader.config = some c) (hb : s.sectionHold = true) (ha : (s.applyConfig c s.quiet).sectionHold = false) :
    s.loadEnds = (s.applyConfig c s.quiet).testEvery.imageLoaded := by
  rw [State.loadEnds_of_commissioning h hcom hc, testAfterHold, hb, ha]
  rfl

/-- Applying a configuration takes no free value. -/
theorem State.applyConfig_free (s : State) (c : ImageConfig) : (s.applyConfig c s.quiet).free = s.free := by
  rw [State.applyConfig_quiet]
  split <;> rfl

end Commissioning

end Sys2Proof.Machine

section

open Sys2Proof Sys2Proof.Machine

/-- Settles O47: the end by the phase of the load read to its end, and the load unit by unit; what a load that has passed has
read is what every unit keeps (`Loader.HasRead`). -/
theorem loadImageEndMarksTheBank : Obligations.LoadImageEndMarksTheBank := by
  refine ⟨?_, ?_, ?_, flashRead_eq, fun _ => rfl, fun _ _ => readHeader_eq_some, fun _ _ _ => readConfig_eq_some,
    fun _ _ => rfl, imageLimits?_eq, ⟨rfl, rfl⟩, ?_, ?_⟩
  · intro s answers hr u passed
    obtain ⟨m, b, hu⟩ : ∃ m b, u = { s with loader := m, banks := s.banks.setTables s.loadTarget b } :=
      s.finishLoad_writes answers
    have hagent : u.agent = s.agent := by rw [hu]
    have hhold : u.sectionHold = s.sectionHold := by rw [hu]; rfl
    rw [exec_loadImageEnd hr answers]
    refine ⟨fun hp => ?_, fun hp hlive => ?_, ?_⟩
    · rw [State.loadEnds_of_not_passed hp, hu]
    · rw [State.loadEnds_of_live hp (by rw [hagent, hlive])]
      rfl
    · intro c hp hcom hc applied
      rw [← hagent] at hcom
      have happlied : u.applyConfig c u.quiet = applied := by
        rw [State.applyConfig_quiet]
        exact if_congr (by rw [hu]; rfl) rfl rfl
      rw [← hhold, ← happlied]
      refine ⟨fun hold => ?_, fun hb ha => ?_⟩
      · rw [State.loadEnds_of_no_end hp hcom hc hold]
        rfl
      · obtain ⟨order, hperm, he⟩ := (u.applyConfig c u.quiet).testEvery_eq
        have hfree : u.free = s.free := by rw [hu]
        rw [State.applyConfig_free, hfree] at he
        refine ⟨order, hperm, ?_⟩
        rw [State.loadEnds_of_end hp hcom hc hb ha, he]
        rfl
  · intro s answers u target
    refine ⟨s.finishLoad_eq answers, fun hp => s.finishLoad_passed hp answers, fun ha hp => ?_, fun ha => ?_⟩ <;> subst ha
    · exact s.finishLoad_silent.trans (if_neg hp)
    · exact s.finishLoad_ends.symm
  · intro flash n a t l hp
    obtain ⟨h, c, hl, ht, hcounts, hsum, hne⟩ := (hasRead_iterate_loadUnit flash n a t).of_passed hp
    obtain ⟨hread, hsound⟩ := hl.configApplies
    exact ⟨h, c, hl.header, hl.config, flashRead_mark hl.headerRead, hl.headerRead, hread, hsound, ht.nodup,
      fun k => (ht.counts k).trans (by rw [hcounts]), hsum, hne⟩
  · intro flash l t failed
    refine ⟨fun hp => loadUnit_ended hp, fun hp => ⟨loadUnit_header_of_none hp, fun h => loadUnit_header_of_some hp⟩,
      fun h hp hh => ⟨loadUnit_config_of_not_applies hp hh, fun c => loadUnit_config_of_applies hp hh⟩,
      fun h hp hh => ⟨loadUnit_overrun hp hh, fun hl => ?_⟩⟩
    exact (loadUnit_finish hp hh hl).trans (congrArg (·, t) (loadFinish_eq flash l h))
  · intro flash l t h table hi lo fields hp hh hl hf index failed
    rw [loadUnit_record hp hh hl]
    refine ⟨fun ht => loadRecord_of_no_table hf (tableOf?_of_undefined ht), fun k hk => ?_⟩
    have ht := tableOf?_of_number hk
    refine ⟨loadRecord_of_bad_index hf ht, fun hbad => loadRecord_of_bad_fields hf ht fun r rest hr => ?_,
      fun r rest hr => ⟨loadRecord_of_failure hf ht hr, fun hrange hseen hpass =>
        ⟨_, loadRecord_of_passed hf ht hrange hseen hr hpass, ?_, fun k' n => ?_⟩⟩⟩
    · rcases hbad with hbad | ⟨check, rest', hbad⟩ <;> cases hr.symm.trans hbad
    · exact Tables.record?_putRecord_self fun x hx => Option.some.inj hx ▸ isOf_of_readFields hr
    · exact Tables.record?_putRecord_ne fun x hx => Option.some.inj hx ▸ isOf_of_readFields hr

end
end

section
/-! Frames received (R144 to R150): links, frames of another type, telegrams for another node and the guard, and the telegrams for
the own node that pass every check of R147. -/

namespace Sys2Proof.Machine

open Octets

variable {s : State} {port : Port} {f : Frame} {t : Telegram}

/-! ## Links (R144) -/

theorem State.setLink_events (s : State) (port : Port) (up : Bool) : (s.setLink port up).events = s.events := by
  cases port <;> rfl

theorem exec_linkUp (s : State) (port : Port) : exec (.linkUp port) s = .next (s.setLink port true) := by
  rw [exec_eq, effect, settleNotice_quiet] <;> rw [State.setLink_events]

theorem exec_linkDown (s : State) (port : Port) : exec (.linkDown port) s = .next (s.setLink port false) := by
  rw [exec_eq, effect, settleNotice_quiet] <;> rw [State.setLink_events]

/-! ## Frames sorted (R144, R146) -/

/-- Nothing is received of a frame at a port whose link is down, of a bad frame, or of one below the Ethernet minimum. -/
theorem exec_frameReceive_ignored {good : Bool} (h : s.linkUp port = false ∨ good = false ∨ f.payload.length < 46) :
    exec (.frameReceive port good f) s = .next s := by
  refine event_id (if_neg fun hreceived => ?_)
  obtain ⟨hopen, hlen⟩ := Bool.and_eq_true_iff.1 hreceived
  obtain ⟨hup, hgood⟩ := Bool.and_eq_true_iff.1 hopen
  rcases h with h | h | h
  · exact Bool.false_ne_true (h.symm.trans hup)
  · exact Bool.false_ne_true (h.symm.trans hgood)
  · exact Nat.not_lt.2 (of_decide_eq_true hlen) h

theorem State.receiveFrame_of_good (hup : s.linkUp port = true) (hlen : 46 ≤ f.payload.length) :
    s.receiveFrame port true f = s.sortFrame port f := by
  simp [State.receiveFrame, hup, minimumPayload, hlen]

theorem State.sortFrame_of_other_type (h : f.etherType ≠ s.filter.protocolType) :
    s.sortFrame port f = s.forward port f := if_pos h

/-- A telegram for another node: the guard alone decides, whatever R147 would make of it. -/
theorem State.sortFrame_of_other_node (htype : f.etherType = s.filter.protocolType)
    (hread : readTelegram f.payload = some t) (hnode : t.destination ≠ s.filter.ownNode) :
    s.sortFrame port f = if s.guards port t then s.guardDrop else s.forward port f := by
  simp [State.sortFrame, htype, hread, hnode]

theorem State.sortFrame_of_own_node (htype : f.etherType = s.filter.protocolType)
    (hread : readTelegram f.payload = some t) (hnode : t.destination = s.filter.ownNode) :
    s.sortFrame port f = ((s.checkTelegram port t).map (s.consume · t.source t.body)).getD s.frameError := by
  simp only [State.sortFrame, htype, hread, hnode, ne_eq, not_true_eq_false, if_false]
  cases s.checkTelegram port t <;> rfl

/-! ## Frames forwarded (R150) -/

theorem State.forward_flags (s : State) (port : Port) (f : Frame) :
    (s.forward port f).events.flags = s.events.flags ∧ (s.forward port f).events.enables = s.events.enables := by
  cases port <;> unfold State.forward <;> dsimp only <;> split <;> exact ⟨rfl, rfl⟩

theorem exec_frameReceive_forwarded (hlen : 46 ≤ f.payload.length) (h : s.sortFrame port f = s.forward port f)
    (hup : s.linkUp port = true) : exec (.frameReceive port true f) s = .next (s.forward port f) := by
  obtain ⟨hflags, henables⟩ := s.forward_flags port f
  exact event_eq ((State.receiveFrame_of_good hup hlen).trans h) hflags henables

/-! ## The guard (R149) -/

theorem StationState.guarded_iff (x : StationState) : x.guarded = true ↔ x = .idle ∨ x = .dispatching ∨ x = .held := by
  cases x <;> simp [StationState.guarded]

/-- The guard lets pass what is no SELECT or CANCEL, and what is for no robot of a configured slot. -/
theorem State.guards_of_unguarded_telegram
    (h : (t.kind ≠ 0x10 ∧ t.kind ≠ 0x11) ∨ ∀ g : SlotId, s.robotNode? g ≠ some t.destination) :
    s.guards port t = false := by
  refine Bool.eq_false_iff.2 fun hg => ?_
  obtain ⟨-, -, hkind, g, hslot, -⟩ := guards_eq_true.1 hg
  rcases h with ⟨hselect, hcancel⟩ | hnone
  · exact hkind.elim hselect hcancel
  · cases (State.slotOfNode?_eq_none.2 hnone).symm.trans hslot

/-- The guard lets pass what arrives at the Cell port, in COMMISSIONING, or for a MANUAL or OFFLINE station. -/
theorem State.guards_of_open {g : SlotId} (hslot : s.slotOfNode? t.destination = some g)
    (h : port = .cell ∨ s.agent.partState = .commissioning ∨ (s.station (stationOf g)).state = .manual ∨
      (s.station (stationOf g)).state = .offline) : s.guards port t = false := by
  refine Bool.eq_false_iff.2 fun hg => ?_
  obtain ⟨hlive, hport, -, g', hslot', hguarded⟩ := guards_eq_true.1 hg
  cases hslot.symm.trans hslot'
  rcases h with h | h | h | h
  · cases hport.symm.trans h
  · cases hlive.symm.trans h
  · rw [h] at hguarded
    cases hguarded
  · rw [h] at hguarded
    cases hguarded

/-! ## A telegram for the own node that is in order (R147, R148) -/

theorem checkTelegram_of_wellFormed {k : TelegramKind} (hversion : t.version = 1) (hkind : kindOf? t.kind = some k)
    (hleast : k.minimumBody ≤ t.bodyLength.toNat) (hpresent : t.bodyLength.toNat ≤ t.after.length)
    (hpad : t.bodyLength.toNat = t.after.length ∨ t.after.length ≤ 38) :
    s.checkTelegram port t = if s.badSource t.source || !s.accepts k port t.source then none else some k := by
  have hexact : ¬(t.bodyLength.toNat < t.after.length ∧ minimumPayload < telegramHeader + t.after.length) := by
    simp only [minimumPayload, telegramHeader]
    omega
  simp only [State.checkTelegram, hversion, hkind, hexact, Nat.not_lt.2 hpresent, Nat.not_lt.2 hleast, ne_eq,
    not_true_eq_false, if_false]
  cases s.badSource t.source <;> cases s.accepts k port t.source <;> rfl

/-- The frame that carries a telegram of a source node for the own node, padded to the Ethernet minimum (R189). -/
def State.ownFrame (s : State) (a b : BitVec 48) (source : Node) (code : Octet) (body : List Octet) : Frame :=
  ⟨a, b, s.filter.protocolType,
    [1, code] ++ be2 (BitVec.ofNat 16 body.length) ++ be2 s.filter.ownNode ++ be2 source ++ body ++
      List.replicate (38 - body.length) 0⟩

theorem readTelegram_ownFrame (s : State) (a b : BitVec 48) (source : Node) (code : Octet) (body : List Octet) :
    readTelegram (s.ownFrame a b source code body).payload =
      some ⟨1, code, BitVec.ofNat 16 body.length, s.filter.ownNode, source,
        body ++ List.replicate (38 - body.length) 0⟩ := by
  rw [← be2_join (BitVec.ofNat 16 body.length), ← readTelegram_header]
  simp [State.ownFrame, be2]

/-- A telegram in order for the own node is what its kind makes of its body, from a source that R147 and R148 accept, and a frame
error from any other: just as the command of that kind has it (log entry 6). -/
theorem exec_ownFrame (s : State) (a b : BitVec 48) (source : Node) {code : Octet} {k : TelegramKind} {body : List Octet}
    {take : State → State} (hkind : kindOf? code = some k) (hleast : k.minimumBody ≤ body.length)
    (hbody : body.length < 65536) (htake : s.consume k source body = take s) :
    exec (.frameReceive port true (s.ownFrame a b source code body)) s = event (·.fromSource k port source take) s := by
  have hlength : (BitVec.ofNat 16 body.length).toNat = body.length := by
    rw [BitVec.toNat_ofNat]
    omega
  have hsize : 46 ≤ (s.ownFrame a b source code body).payload.length := by
    simp only [State.ownFrame, List.length_append, List.length_cons, List.length_nil, length_be2, List.length_replicate]
    omega
  have heffect : s.receiveFrame port true (s.ownFrame a b source code body) = s.fromSource k port source take := by
    cases hup : s.linkUp port with
    | false => simp [State.receiveFrame, State.fromSource, hup]
    | true =>
      rw [State.receiveFrame_of_good hup hsize, State.sortFrame_of_own_node rfl (readTelegram_ownFrame ..) rfl,
        checkTelegram_of_wellFormed rfl hkind (hlength.symm ▸ hleast) (by simp [hlength])
          (by simp only [hlength, List.length_append, List.length_replicate]; omega)]
      simp only [State.fromSource, hup, if_true, Telegram.body, hlength, List.take_left']
      cases s.badSource source || !s.accepts k port source
      · exact htake
      · rfl
  exact congrArg (fun u => Host.Outcome.next (settleNotice s u)) heffect

end Sys2Proof.Machine

section

open Sys2Proof Sys2Proof.Machine

/-- Settles O14: a frame of another type and a telegram that the guard does not read are sorted to `State.forward`. -/
theorem ordinaryFrameIsForwardedOrCounted : Obligations.OrdinaryFrameIsForwardedOrCounted := by
  intro s f forwarded
  have forwards (hlen : 46 ≤ f.payload.length) (h : ∀ port, s.sortFrame port f = s.forward port f) : forwarded :=
    ⟨exec_frameReceive_forwarded hlen (h .uplink), exec_frameReceive_forwarded hlen (h .cell)⟩
  refine ⟨⟨exec_linkUp s .uplink, exec_linkDown s .uplink, exec_linkUp s .cell, exec_linkDown s .cell⟩,
    fun _ _ => exec_frameReceive_ignored, fun hlen htype => forwards hlen fun _ => State.sortFrame_of_other_type htype,
    fun version kind hi lo d source rest hpayload hlen htype hnode h => forwards hlen fun port => ?_⟩
  obtain ⟨t, hread, rfl, rfl⟩ : ∃ t, readTelegram f.payload = some t ∧ t.kind = kind ∧ t.destination = d :=
    ⟨_, hpayload ▸ readTelegram_header version kind hi lo d source rest, rfl, rfl⟩
  rw [State.sortFrame_of_other_node htype hread hnode, State.guards_of_unguarded_telegram h]
  rfl

/-- Settles O15, by the cases of `State.guards`. -/
theorem guardDropsForeignSelections : Obligations.GuardDropsForeignSelections := by
  intro s version kind hi lo d source rest f g hpayload hlen htype hkind hnode hslot x
  obtain ⟨t, hread, rfl, rfl⟩ : ∃ t, readTelegram f.payload = some t ∧ t.kind = kind ∧ t.destination = d :=
    ⟨_, hpayload ▸ readTelegram_header version kind hi lo d source rest, rfl, rfl⟩
  have hsort (port : Port) := State.sortFrame_of_other_node (port := port) htype hread hnode
  have forwards (port : Port) (h : s.guards port t = false) : s.sortFrame port f = s.forward port f :=
    (hsort port).trans (if_neg (Bool.eq_false_iff.1 h))
  refine ⟨fun hup hlive hx => ?_, fun hup h => ?_, fun hup => ?_⟩
  · have hguards := guards_eq_true.2 ⟨hlive, rfl, hkind, g, hslot, (StationState.guarded_iff x).2 hx⟩
    exact event_noticed (((State.receiveFrame_of_good (port := .uplink) hup hlen).trans (hsort .uplink)).trans (if_pos hguards))
  · exact exec_frameReceive_forwarded hlen (forwards .uplink (State.guards_of_open hslot (.inr h))) hup
  · exact exec_frameReceive_forwarded hlen (forwards .cell (State.guards_of_open hslot (.inl rfl))) hup

/-- Settles O16: for each kind, that its body reads back to the command's fields. -/
theorem announceFrameIsTheAnnouncement : Obligations.AnnounceFrameIsTheAnnouncement := by
  intro s source bodyId station origin style options variant number code params tag verdict reason program spots quality
    dressed a b frame
  refine ⟨exec_ownFrame s a b source (k := .announce) rfl (by simp [TelegramKind.minimumBody]) (by simp) ?_,
    exec_ownFrame s a b source (k := .withdraw) rfl (by simp [TelegramKind.minimumBody]) (by simp) ?_,
    fun hparams => exec_ownFrame s a b source (k := .request) rfl (by simp [TelegramKind.minimumBody]; omega)
      (by simp; omega) ?_,
    exec_ownFrame s a b source (k := .ready) rfl (by simp [TelegramKind.minimumBody]) (by simp) ?_,
    exec_ownFrame s a b source (k := .done) rfl (by simp [TelegramKind.minimumBody]) (by simp) ?_⟩
  · simp [State.consume, State.announceBody, read1_cons]
  · simp [State.consume, State.withdrawTelegramBody, read1_cons]
  · simp [State.consume, State.requestBody, read1_cons]
  · simp [State.consume, State.readyBody, read1_cons]
  · simp [State.consume, State.doneBody, read1_cons]

end
end

section
/-! A REQUEST received (R145, R148, R156), a REPLY and a NOTICE that depart (R156, R174), and the offer of a result record to a
channel that matches it (R152, R178, R179). -/

namespace Sys2Proof.Machine

open Octets

variable {s : State}

/-! ## A REQUEST received (R145, R148, R156) -/

theorem State.fromSource_of_accepted {k : TelegramKind} {port : Port} {source : Node} (hup : s.linkUp port = true)
    (hsource : s.badSource source = false) (haccepts : s.accepts k port source = true) (take : State → State) :
    s.fromSource k port source take = take s := by
  simp [State.fromSource, hup, hsource, haccepts]

theorem State.accepts_request {source : Node} : s.accepts .request .uplink source = true ↔
    s.filter.controllerNode = none ∨ s.filter.controllerNode = some source := by
  simp [State.accepts]

theorem exec_request_eq {source : Node} (hup : s.ports.uplinkUp = true) (h0 : source ≠ 0) (hb : source ≠ 65535)
    (hown : source ≠ s.filter.ownNode)
    (hcontroller : s.filter.controllerNode = none ∨ s.filter.controllerNode = some source) (number : BitVec 16)
    (code : Octet) (params : List Octet) :
    exec (.request source number code params) s =
      .next (settleNotice s (s.takeRequest source number code params)) := by
  have hsource : s.badSource source = false :=
    Bool.eq_false_iff.2 fun h => (State.badSource_eq_true.1 h).elim h0 (Or.elim · hb hown)
  rw [exec_eq, effect,
    State.fromSource_of_accepted (port := .uplink) hup hsource (State.accepts_request.2 hcontroller)]

theorem State.takeRequest_of_room (h : s.agent.requests.length < 4) (source : Node) (number : BitVec 16) (code : Octet)
    (params : List Octet) : s.takeRequest source number code params =
      { s with
        filter := { s.filter with replyNode := some source }
        agent := { s.agent with requests := s.agent.requests ++ [⟨source, number, code, params, false⟩] } } := if_pos h

theorem State.takeRequest_of_full (h : ¬s.agent.requests.length < 4) (source : Node) (number : BitVec 16) (code : Octet)
    (params : List Octet) : s.takeRequest source number code params =
      { s with
        filter := { s.filter with replyNode := some source }
        events := { s.events with
          requestDrops := bump s.events.requestDrops
          flags := s.events.flags ||| (1#29 <<< 18) } } := if_neg h

/-! ## A REPLY and a NOTICE depart (R156, R174) -/

section Departures

variable {rest : List UplinkTelegram}

theorem State.takeUplink_of_front {x : UplinkTelegram} (hq : s.ports.uplinkOwn = x :: rest) :
    s.takeUplink x = { s with ports := { s.ports with uplinkOwn := rest, uplinkTx := some (s.uplinkFrame x) } } := by
  simp only [State.takeUplink, hq]
  rfl

theorem State.dropAnswered_of_answered {e : RequestEntry} {waiting : List RequestEntry}
    (hr : s.agent.requests = e :: waiting) (he : e.answered = true) :
    s.dropAnswered = { s with agent := { s.agent with requests := waiting } } := by
  simp only [State.dropAnswered, hr, he, if_true]
  rfl

/-- The REPLY to any request but RESTART. -/
theorem State.replyTransmit_of_reply {v : Envelope} {number : BitVec 16} {code : Octet} {result : ResultCode}
    {summary : Octet} {data : List Octet} (hup : s.ports.uplinkUp = true)
    (hq : s.ports.uplinkOwn = .reply v number code result summary data :: rest) (hcode : code ≠ 0x54) :
    s.replyTransmit = (s.takeUplink (.reply v number code result summary data)).dropAnswered := by
  simp only [State.replyTransmit, State.uplinkFront?, hup, hq, if_true, List.head?_cons]
  exact if_neg hcode

theorem State.noticeTransmit_of_notice (hup : s.ports.uplinkUp = true) (hq : s.ports.uplinkOwn = .notice :: rest) :
    s.noticeTransmit = (s.takeUplink .notice).setEvents { s.events with noticePending := false } := by
  simp [State.noticeTransmit, State.uplinkFront?, hup, hq]

end Departures

/-! ## A record offered to a channel that matches it (R152, R178, R179) -/

section Offer

variable {st : StationId} {content : CopyContent} {c : ChannelId} {x : Channel}

theorem Channel.hits_iff : x.hits st content = true ↔
    x.armed = true ∧ x.trigger = content.trigger ∧ x.stationMask.getLsbD st.val = true := by
  simp [Channel.hits, and_assoc]

/-- While fewer than 11 COPYs wait, a channel that matches places its own. -/
theorem offerCopy_of_room (hits : s.channels[c].hits st content = true) (room : s.copiesWaiting < 11) :
    offerCopy st content s c =
      ((s.pushUplink (.copy (s.envelopeTo (s.channels[c].destination.getD 0)) c st s.lineTime content)).setChannel c
        s.channels[c].placed).setFlagIf s.channels[c].exhausts (.mirrorExhausted c) :=
  (if_pos hits).trans (if_pos room)

/-- With 11 waiting it loses its COPY. -/
theorem offerCopy_of_full (hits : s.channels[c].hits st content = true) (full : 11 ≤ s.copiesWaiting) :
    offerCopy st content s c =
      (s.setChannel c { s.channels[c] with copyLost := bump s.channels[c].copyLost }).setFlag .copyLost :=
  (if_pos hits).trans (if_neg (Nat.not_lt.2 full))

theorem Channel.placed_of_count {n : Nat} (hcount : x.count = some n) (harmed : x.armed = true) (hleft : 1 ≤ x.remaining) :
    x.placed = { x with remaining := x.remaining - 1, armed := decide (x.remaining ≠ 1) } := by
  have hstays : (1 < x.remaining) = (x.remaining ≠ 1) := by
    rw [eq_iff_iff]
    omega
  simp only [Channel.placed, hcount, harmed, Bool.true_and, hstays]

theorem Channel.exhausts_of_count {n : Nat} (hcount : x.count = some n) (hleft : 1 ≤ x.remaining) :
    x.exhausts = decide (x.remaining = 1) := by
  have hlast : (x.remaining ≤ 1) = (x.remaining = 1) := by
    rw [eq_iff_iff]
    omega
  simp only [Channel.exhausts, hcount, Option.isSome_some, Bool.true_and, hlast]

theorem Channel.placed_of_continuous (hcount : x.count = none) : x.placed = x := by simp only [Channel.placed, hcount]

theorem Channel.exhausts_of_continuous (hcount : x.count = none) : x.exhausts = false := by
  simp only [Channel.exhausts, hcount, Option.isSome_none, Bool.false_and]

/-- Writing a channel's own value changes nothing. -/
theorem State.setChannel_self (s : State) (c : ChannelId) : s.setChannel c s.channels[c] = s := by
  simp [State.setChannel, State.setChannels]

end Offer

end Sys2Proof.Machine

section

open Sys2Proof Sys2Proof.Machine

/-- Settles O32: what leaves the Uplink own-telegram queue, and what its owner does then. -/
theorem replyAndNoticeTransmitReportToTheirOwners : Obligations.ReplyAndNoticeTransmitReportToTheirOwners := by
  intro s rest hup
  refine ⟨fun v number code result summary data e waiting hq hcode hr he => ?_, fun hq => ?_⟩
  · refine event_eq ((State.replyTransmit_of_reply hup hq hcode).trans ?_) rfl rfl
    rw [State.takeUplink_of_front hq]
    exact State.dropAnswered_of_answered hr he
  · refine event_eq ((State.noticeTransmit_of_notice hup hq).trans ?_) rfl rfl
    rw [State.takeUplink_of_front hq]
    rfl

/-- Settles O35: the controller's REQUEST, or any valid node's while none is configured, is taken, by the room there is. -/
theorem requestJoinsTheQueueOrIsDropped : Obligations.RequestJoinsTheQueueOrIsDropped := by
  intro s source number code params hup h0 hb hown hcontroller
  rw [exec_request_eq hup h0 hb hown hcontroller]
  split
  · next room =>
    rw [State.takeRequest_of_room room]
    exact congrArg _ (settleNotice_quiet rfl rfl)
  · next full => rw [State.takeRequest_of_full full]

/-- Settles O58: a channel with a count, a CONTINUOUS one, and one that finds no room. -/
theorem mirrorPlacesOrLosesItsCopy : Obligations.MirrorPlacesOrLosesItsCopy := by
  intro s st content c x harmed htrigger hmask queued
  have hits := Channel.hits_iff.2 ⟨harmed, htrigger, hmask⟩
  refine ⟨fun n hcount hleft room => ?_, fun hcount room => ?_, fun full => offerCopy_of_full hits full⟩
  · rw [offerCopy_of_room hits room, Channel.placed_of_count hcount harmed hleft, Channel.exhausts_of_count hcount hleft]
    by_cases hlast : x.remaining = 1
    · simp only [hlast, decide_true, State.setFlagIf_true, if_true]
      rfl
    · simp only [hlast, decide_false, State.setFlagIf_false, if_false]
      rfl
  · rw [offerCopy_of_room hits room, Channel.placed_of_continuous hcount, Channel.exhausts_of_continuous hcount]
    exact State.setChannel_self (s.pushUplink _) c

end
end

section
/-! What every command keeps (R157, R161): the queue of commands, and a LIVE part with its configuration. One relation between the
state before and the state after holds of the effect of every command but a power-up reset, and of a millisecond. -/

namespace Sys2Proof.Machine

/-- A power-up load runs only in COMMISSIONING (R185). -/
def State.loadsInCommissioning (s : State) : Prop :=
  s.loader.activity = .powerUpLoad → s.agent.partState = .commissioning

/-- What an operation keeps: the queue of commands; that a power-up load runs only in COMMISSIONING; and with that, a LIVE part
LIVE, with its configuration. -/
structure Steady (s t : State) : Prop where
  pending : t.pending = s.pending
  loads : s.loadsInCommissioning → t.loadsInCommissioning
  live : s.loadsInCommissioning → s.agent.partState = .live → t.agent.partState = .live ∧ s.sameConfiguration t

/-- The queue of commands, the part state and the configuration (R157, R161). -/
def State.standing (s : State) :=
  (s.pending, s.agent.partState, s.filter.protocolType, s.filter.ownNode, s.filter.controllerNode, s.filter.trackerNode,
    s.filter.robotNodes, s.tracker.stationCount, s.tracker.slotCounts)

theorem State.standing_eq_iff {s t : State} : t.standing = s.standing ↔
    t.pending = s.pending ∧ t.agent.partState = s.agent.partState ∧ s.sameConfiguration t := by
  simp only [State.standing, Prod.mk.injEq, State.sameConfiguration]

theorem State.sameConfiguration.trans {s t u : State} (h : s.sameConfiguration t) (k : t.sameConfiguration u) :
    s.sameConfiguration u := by
  obtain ⟨h1, h2, h3, h4, h5, h6, h7⟩ := h
  obtain ⟨k1, k2, k3, k4, k5, k6, k7⟩ := k
  exact ⟨k1.trans h1, k2.trans h2, k3.trans h3, k4.trans h4, k5.trans h5, k6.trans h6, k7.trans h7⟩

theorem activity_loadUnits (flash : List Octet) (n : Nat) (x : Loader × Tables) :
    (loadUnits flash n x).1.activity = x.1.activity := by
  induction n generalizing x with
  | zero => rfl
  | succ n ih =>
    unfold loadUnits
    split
    · rfl
    · rw [ih, activity_loadUnit]

/-- A configuration applied leaves the queue of commands and the Management Agent (R184). -/
theorem State.applyConfig_beside (s : State) (c : ImageConfig) (shaped : Bool) :
    (s.applyConfig c shaped).pending = s.pending ∧ (s.applyConfig c shaped).agent = s.agent := by
  unfold State.applyConfig
  simp only [State.applySettings_eq, State.applyShape_eq]
  split <;> exact ⟨rfl, rfl⟩

/-- The end of a power-up load leaves the queue of commands (R185). -/
theorem State.powerUpEnds_pending (s : State) : s.powerUpEnds.pending = s.pending := by
  have passes : ∀ report, (s.powerUpPasses report).pending = s.pending := by
    intro report
    unfold State.powerUpPasses
    simp only
    split
    · next c _ =>
      obtain ⟨hp, -⟩ := State.applyConfig_beside (s.setBanks { s.banks with validated := true, report := report }) c true
      rw [State.setFlag_pending, hp, State.setBanks_pending]
    · rfl
  unfold State.powerUpEnds
  split
  · split
    · exact passes _
    · rfl
  · rfl

namespace Steady

/-- A change beside the queue of commands, the part state and the configuration, which begins no power-up load. -/
theorem beside {s t : State} (h : t.standing = s.standing)
    (hl : t.loader.activity = .powerUpLoad → s.loader.activity = .powerUpLoad) : Steady s t := by
  obtain ⟨hp, ha, hc⟩ := State.standing_eq_iff.1 h
  exact ⟨hp, fun hs ht => ha.trans (hs (hl ht)), fun _ hlive => ⟨ha.trans hlive, hc⟩⟩

theorem refl (s : State) : Steady s s := beside rfl id

/-- Two operations one after the other, the later one first. -/
theorem after {s t u : State} (k : Steady t u) (h : Steady s t) : Steady s u where
  pending := k.pending.trans h.pending
  loads hs := k.loads (h.loads hs)
  live hs hl := by
    obtain ⟨ht, hc⟩ := h.live hs hl
    obtain ⟨hu, kc⟩ := k.live (h.loads hs) ht
    exact ⟨hu, hc.trans kc⟩

theorem of_dispatched {s t : State} (d : Dispatched s t) : Steady s t :=
  beside (State.standing_eq_iff.2 ⟨d.pending, by rw [d.agent], d.sameConfiguration⟩) (by rw [d.loader]; exact id)

/-- In COMMISSIONING any part of the configuration may change (R161). -/
theorem of_commissioning {s t : State} (hc : s.agent.partState = .commissioning) (hp : t.pending = s.pending)
    (ha : t.agent.partState = s.agent.partState) : Steady s t where
  pending := hp
  loads _ _ := ha.trans hc
  live _ hl := by rw [hc] at hl; cases hl

theorem testAfterHold {s before released tested : State} (h : Steady s tested) :
    Steady s (Machine.testAfterHold before released tested) :=
  after (of_dispatched (.testAfterHold (.refl _))) h

/-- The NOTICE at the end of an event (R171). -/
theorem settleNotice (before after : State) : Steady after (Machine.settleNotice before after) := by
  rcases settleNotice_cases before after with h | ⟨-, h⟩ <;> rw [h]
  · exact refl after
  · exact beside rfl id

/-! ## Frames and telegrams received (R144 to R150) -/

theorem frameError (s : State) : Steady s s.frameError := beside rfl id

theorem setLink (s : State) (port : Port) (up : Bool) : Steady s (s.setLink port up) := by
  cases port <;> exact beside rfl id

theorem forward (s : State) (port : Port) (f : Frame) : Steady s (s.forward port f) := by
  unfold State.forward
  split <;> split <;> exact beside rfl id

theorem takeRequest (s : State) (source : Node) (number : BitVec 16) (code : Octet) (params : List Octet) :
    Steady s (s.takeRequest source number code params) := by
  unfold State.takeRequest
  simp only
  split <;> exact beside rfl id

theorem countAt (s : State) (st : StationId) (f : StationCounters → StationCounters) : Steady s (s.countAt st f) :=
  of_dispatched (.countAt ..)

theorem takeReady (s : State) (g : SlotId) (tag : Tag) (verdict reason program : Octet) :
    Steady s (s.takeReady g tag verdict reason program) := by
  unfold State.takeReady
  split
  · exact frameError s
  · split
    · exact countAt _ _ _
    · exact countAt _ _ _
    · exact countAt _ _ _
    · split
      · exact countAt _ _ _
      · split
        · exact of_dispatched (.acceptRefused ..)
        · split
          · exact of_dispatched (.acceptLoaded ..)
          · exact of_dispatched (.acceptRefused ..)

theorem takeDone (s : State) (g : SlotId) (tag : Tag) (spots quality dressed : Octet) :
    Steady s (s.takeDone g tag spots quality dressed) := by
  unfold State.takeDone
  split
  · exact frameError s
  · split
    · exact countAt _ _ _
    · exact countAt _ _ _
    · exact beside rfl id
    · exact of_dispatched (.acceptDone ..)

theorem forRobot (s : State) (source : Node) {take : State → SlotId → State} (h : ∀ g, Steady s (take s g)) :
    Steady s (s.forRobot source take) := by
  unfold State.forRobot
  split
  · exact h _
  · exact frameError s

theorem refuse (s : State) (bodyId : BodyId) (station : Octet) (reason : RefusalReason) :
    Steady s (s.refuse bodyId station reason) := beside rfl id

theorem takeAnnounce (s : State) (source : Node) (bodyId : BodyId) (station origin : Octet) (style options : BitVec 16)
    (variant : Octet) : Steady s (s.takeAnnounce source bodyId station origin style options variant) := by
  unfold State.takeAnnounce
  split
  · exact frameError s
  · split
    · exact refuse _ _ _ _
    · exact refuse _ _ _ _
    · exact of_dispatched (.accept ..)

theorem withdrawBody (s : State) (bodyId : BodyId) (station : Octet) : Steady s (s.withdrawBody bodyId station).1 := by
  unfold State.withdrawBody
  split
  · exact refuse _ _ _ _
  · split
    · exact refuse _ _ _ _
    · simp only
      split
      · exact of_dispatched (.withdrawHead ..)
      · exact of_dispatched (.withdrawQueued ..)

theorem takeWithdraw (s : State) (source : Node) (bodyId : BodyId) (station : Octet) :
    Steady s (s.takeWithdraw source bodyId station) := by
  unfold State.takeWithdraw
  split
  · exact refuse _ _ _ _
  · exact withdrawBody _ _ _

theorem fromSource (s : State) (k : TelegramKind) (port : Port) (source : Node) {take : State → State}
    (h : Steady s (take s)) : Steady s (s.fromSource k port source take) := by
  unfold State.fromSource
  split
  · split
    · exact frameError s
    · exact h
  · exact refl s

/-- A telegram consumed is what its body spells, or a frame error (R147, R190). -/
theorem consume (s : State) (k : TelegramKind) (source : Node) (body : List Octet) : Steady s (s.consume k source body) := by
  have read : ∀ o : Option State, (∀ t ∈ o, Steady s t) → Steady s (o.getD s.frameError) := by
    rintro (_ | t) h
    · exact frameError s
    · exact h t rfl
  unfold State.consume
  refine read _ fun t ht => ?_
  rw [Option.mem_def] at ht
  split at ht
  · simp only [State.announceBody, Option.bind_eq_bind, Option.bind_eq_some_iff, Option.some.injEq] at ht
    obtain ⟨_, _, _, _, _, _, _, _, _, _, _, _, rfl⟩ := ht
    exact takeAnnounce ..
  · simp only [State.withdrawTelegramBody, Option.bind_eq_bind, Option.bind_eq_some_iff, Option.some.injEq] at ht
    obtain ⟨_, _, _, _, rfl⟩ := ht
    exact takeWithdraw ..
  · simp only [State.requestBody, Option.bind_eq_bind, Option.bind_eq_some_iff, Option.some.injEq] at ht
    obtain ⟨_, _, _, _, rfl⟩ := ht
    exact takeRequest ..
  · simp only [State.readyBody, Option.bind_eq_bind, Option.bind_eq_some_iff, Option.some.injEq] at ht
    obtain ⟨_, _, _, _, _, _, _, _, rfl⟩ := ht
    exact forRobot _ _ fun g => takeReady ..
  · simp only [State.doneBody, Option.bind_eq_bind, Option.bind_eq_some_iff, Option.some.injEq] at ht
    obtain ⟨_, _, _, _, _, _, _, _, rfl⟩ := ht
    exact forRobot _ _ fun g => takeDone ..
  all_goals cases ht

theorem receiveFrame (s : State) (port : Port) (good : Bool) (f : Frame) : Steady s (s.receiveFrame port good f) := by
  unfold State.receiveFrame
  split
  · unfold State.sortFrame
    split
    · exact forward _ _ _
    · split
      · exact forward _ _ _
      · split
        · split
          · exact beside rfl id
          · exact forward _ _ _
        · split
          · exact consume _ _ _ _
          · exact frameError s
  · exact refl s

/-! ## Transmissions (R153) -/

theorem takeCell (s : State) (t : CellTelegram) : Steady s (s.takeCell t) := beside rfl id

theorem takeUplink (s : State) (t : UplinkTelegram) : Steady s (s.takeUplink t) := beside rfl id

theorem selectDeparts (s : State) (g : SlotId) : Steady s (s.selectDeparts g) := by
  unfold State.selectDeparts
  split
  · exact of_dispatched (.after (.modifyEntry ..) (.setTag _ _ _ id))
  · exact refl s

theorem selectTransmit (s : State) : Steady s s.selectTransmit := by
  unfold State.selectTransmit
  split
  · split
    · exact after (selectDeparts _ _) (takeCell _ _)
    · exact refl s
  · exact refl s

theorem cancelTransmit (s : State) : Steady s s.cancelTransmit := by
  unfold State.cancelTransmit
  split
  · split
    · exact takeCell _ _
    · exact refl s
  · exact refl s

theorem forwardTransmit (s : State) (port : Port) : Steady s (s.forwardTransmit port) := by
  have sent : ∀ (c : Bool) (p : Ports), Steady s (if c then s.setPorts p else s) := by
    rintro (_ | _) p
    · exact refl s
    · exact beside rfl id
  unfold State.forwardTransmit
  split
  · split
    · exact sent _ _
    · exact refl s
  · split
    · exact sent _ _
    · exact refl s

theorem releaseTransmit (s : State) : Steady s s.releaseTransmit := by
  unfold State.releaseTransmit
  split
  · exact after (of_dispatched (.drainTest _)) (takeUplink _ _)
  all_goals exact refl s

theorem dropAnswered (s : State) : Steady s s.dropAnswered := by
  unfold State.dropAnswered
  split
  · split <;> exact beside rfl id
  · exact refl s

/-- A RESTART keeps the part state and the configuration (R161, R188). -/
theorem restart (s : State) : Steady s s.restart := beside rfl fun h => nomatch h

theorem replyTransmit (s : State) : Steady s s.replyTransmit := by
  unfold State.replyTransmit
  split
  · have taken : ∀ t, Steady s (s.takeUplink t).dropAnswered := fun t => after (dropAnswered _) (takeUplink _ _)
    simp only
    split
    · exact after (restart _) (taken _)
    · exact taken _
  all_goals exact refl s

theorem noticeTransmit (s : State) : Steady s s.noticeTransmit := by
  unfold State.noticeTransmit
  split
  · exact beside rfl id
  all_goals exact refl s

theorem copyTransmit (s : State) : Steady s s.copyTransmit := by
  unfold State.copyTransmit
  split
  · exact takeUplink _ _
  all_goals exact refl s

/-! ## Loads and long operations (R42 to R47, R185 to R187) -/

theorem setFlag (s : State) (f : EventFlag) : Steady s (s.setFlag f) := of_dispatched (.setFlag ..)

theorem advanceLoad (s : State) (n : Nat) : Steady s (s.advanceLoad n) :=
  beside rfl fun h => (activity_loadUnits _ _ _).symm.trans h

theorem finishLoad (s : State) (answers : Bool) : Steady s (s.finishLoad answers) := by
  unfold State.finishLoad
  split
  · exact advanceLoad s _
  · split
    · exact refl s
    · exact beside rfl id

theorem completeCopy (s : State) : Steady s s.completeCopy := by
  unfold State.completeCopy
  split
  · exact beside rfl id
  · exact refl s

theorem endValidation (s : State) : Steady s s.endValidation := by
  unfold State.endValidation
  split
  · split
    · exact beside rfl id
    · unfold State.switchBanks
      simp only
      split
      · exact beside rfl id
      · exact after (of_dispatched (.testEvery _)) (beside rfl id)
  · exact refl s

theorem endImage (s : State) : Steady s s.endImage := beside rfl fun h => nomatch h

theorem endStore (s : State) (confirmed : Bool) : Steady s (s.endStore confirmed) := by
  unfold State.endStore
  split
  · split
    · exact after (endImage _) (beside rfl id)
    · exact after (endImage _) (beside rfl id)
  · exact refl s

/-- A configuration is applied in COMMISSIONING alone (R184). -/
theorem applyConfig {s : State} (hc : s.agent.partState = .commissioning) (c : ImageConfig) (shaped : Bool) :
    Steady s (s.applyConfig c shaped) := by
  obtain ⟨hp, ha⟩ := s.applyConfig_beside c shaped
  exact of_commissioning hc hp (by rw [ha])

theorem applyLoaded (s : State) : Steady s s.applyLoaded := by
  unfold State.applyLoaded
  split
  · next hc _ => exact testAfterHold (applyConfig hc _ _)
  · exact refl s
  · exact refl s

theorem loadEnds (s : State) : Steady s s.loadEnds := by
  have marked : ∀ (u : State) mark, Steady u (u.setLoadIncomplete mark) := fun _ _ => beside rfl id
  unfold State.loadEnds
  split
  · exact after (endImage _) (after (setFlag _ _) (after (marked _ _) (applyLoaded s)))
  · exact after (endImage _) (after (setFlag _ _) (marked s _))

theorem endLoad (s : State) (answers : Bool) : Steady s (s.endLoad answers) := by
  unfold State.endLoad
  split
  · exact after (loadEnds _) (finishLoad s answers)
  · exact refl s

/-- The end of a power-up load may change all of the configuration, and the part is in COMMISSIONING then (R161, R185). -/
theorem endPowerUpLoad (s : State) (answers : Bool) : Steady s (s.endPowerUpLoad answers) := by
  unfold State.endPowerUpLoad
  split
  · next ha =>
    exact
      { pending := (State.powerUpEnds_pending _).trans (finishLoad s answers).pending
        loads := fun _ h => nomatch h
        live := fun hs hl => by rw [hs ha] at hl; cases hl }
  · exact refl s

/-! ## A millisecond (R42, R182) -/

theorem advanceCopy (s : State) (n : Nat) : Steady s (s.advanceCopy n) := by
  unfold State.advanceCopy
  split
  · exact refl s
  · exact beside rfl id

theorem tick (s : State) : Steady s (Machine.tick s) := by
  have timed : Steady s (s.setLineTime (s.lineTime + 1)) := beside rfl id
  have counted : ∀ t : State, Steady t (t.setFree (s.free + 1)) := fun _ => beside rfl id
  have written : ∀ (t : State) n, Steady t (t.advanceStore n) := fun _ _ => beside rfl id
  unfold Machine.tick
  simp only
  split
  · exact after (counted _) (after (advanceCopy _ _) timed)
  · split
    · exact timed
    · exact after (counted _) (after (advanceLoad _ _) timed)
    · exact after (counted _) (after (advanceLoad _ _) timed)
    · exact after (counted _) (after (written _ _) timed)

/-! ## Requests (R157, R158) -/

theorem readBody (s : State) (station position : Octet) : Steady s (s.answerReadBody station position).state := by
  unfold State.answerReadBody
  split
  · exact refl s
  · split
    · exact refl s
    · split <;> exact refl s

theorem readTable (s : State) (bank table : Octet) (first count : BitVec 16) :
    Steady s (s.answerReadTable bank table first count).state := by
  unfold State.answerReadTable
  split
  · split <;> exact refl s
  · exact refl s

theorem readGun (s : State) (first count : Octet) : Steady s (s.answerReadGun first count).state := by
  unfold State.answerReadGun
  split <;> exact refl s

theorem readCounters (s : State) (clear : Octet) : Steady s (s.answerReadCounters clear).state := by
  unfold State.answerReadCounters
  split
  · exact refl s
  · split
    · exact beside rfl id
    · exact refl s

theorem setTables (s : State) (i : BankId) (x : Tables) : Steady s (s.setTables i x) := beside rfl id

theorem writeTable (s : State) (bank table : Octet) (first count : BitVec 16) (records : List Octet) :
    Steady s (s.answerWriteTable bank table first count records).state := by
  unfold State.answerWriteTable State.writeRun
  split
  · split
    · split
      · split
        · exact refl s
        · split
          · exact refl s
          · exact setTables _ _ _
      · exact refl s
    · exact refl s
  · exact refl s

theorem writeBlock (s : State) (bank r1 r2 c1 c2 form : Octet) (cells : List Octet) :
    Steady s (s.answerWriteBlock bank r1 r2 c1 c2 form cells).state := by
  unfold State.answerWriteBlock State.writeBlock
  simp only
  split
  · split
    · split
      · exact refl s
      · split
        · exact refl s
        · exact setTables _ _ _
    · exact refl s
  · exact refl s

theorem clearBank (s : State) (bank : Octet) : Steady s (s.answerClearBank bank).state := by
  unfold State.answerClearBank
  split
  · exact refl s
  · split
    · exact refl s
    · exact beside rfl id

theorem copyBank (s : State) : Steady s s.answerCopyBank.state := by
  unfold State.answerCopyBank
  split <;> exact beside rfl id

theorem swap (s : State) : Steady s s.answerSwap.state := by
  unfold State.answerSwap
  split
  · exact refl s
  · split <;> exact beside rfl id

theorem loadImage (s : State) : Steady s s.answerLoadImage.state := by
  unfold State.answerLoadImage
  split
  · exact refl s
  · exact beside rfl fun h => nomatch h

theorem storeImage (s : State) : Steady s s.answerStoreImage.state := by
  unfold State.answerStoreImage
  split
  · exact refl s
  · exact beside rfl fun h => nomatch h

theorem setStationMode (s : State) (st : StationId) (mode : StationState) (dry : Bool) (limit : Nat) :
    Steady s (s.setStationMode st mode dry limit) := by
  unfold State.setStationMode State.testIfIdled
  split
  · exact after (of_dispatched (.testStation ..)) (beside rfl id)
  · exact beside rfl id

theorem setStation (s : State) (station mode dry : Octet) (limit : BitVec 16) :
    Steady s (s.answerSetStation station mode dry limit).state := by
  unfold State.answerSetStation
  split
  · split
    · exact refl s
    · simp only
      split <;> exact setStationMode ..
  · exact refl s

theorem setFaultModes (s : State) (station : Octet) (pairs : List (Octet × Octet)) :
    Steady s (s.answerSetFaultModes station pairs).state := by
  unfold State.answerSetFaultModes
  split
  · split <;> exact beside rfl id
  · exact refl s

theorem setHoldScope (s : State) (scope : Octet) : Steady s (s.answerSetHoldScope scope).state := by
  unfold State.answerSetHoldScope
  split
  · exact refl s
  · exact testAfterHold (beside rfl id)

theorem clearStation (s : State) (station option : Octet) :
    Steady s (s.answerClearStation station option).state := by
  unfold State.answerClearStation
  split
  · split
    · exact of_dispatched (.clearStation ..)
    · exact refl s
  · exact refl s

theorem onGun (s : State) (slot : Octet) {op : SlotId → Answer} (h : ∀ g, Steady s (op g).state) :
    Steady s (s.onGun slot op).state := by
  unfold State.onGun
  split
  · exact refl s
  · split
    · exact refl s
    · exact h _

theorem setGun (s : State) (slot : Octet) (dress hard ceiling : BitVec 16) :
    Steady s (s.answerSetGun slot dress hard ceiling).state := onGun s slot fun g => by
  simp only
  split <;> exact beside rfl id

theorem clearEvents (s : State) (mask : BitVec 32) : Steady s (s.answerClearEvents mask).state := by
  unfold State.answerClearEvents
  split <;> exact beside rfl id

theorem setEventEnable (s : State) (enables : BitVec 32) : Steady s (s.answerSetEventEnable enables).state := by
  unfold State.answerSetEventEnable
  split <;> exact beside rfl id

theorem setMirror (s : State) (channel option trigger mask : Octet) (destination : Node) (form count : Octet) :
    Steady s (s.answerSetMirror channel option trigger mask destination form count).state := by
  unfold State.answerSetMirror
  split
  · exact beside rfl id
  · split
    · simp only
      split <;> exact beside rfl id
    · exact refl s
  · exact refl s

/-- CONFIGURE is refused while LIVE (R161, R162). -/
theorem configure (s : State) (x : Shape) : Steady s (s.answerConfigure x).state := by
  unfold State.answerConfigure State.configureRefusal
  cases hc : s.agent.partState with
  | live => exact refl s
  | commissioning =>
    split
    · exact refl s
    · rw [State.applyShape_eq]
      exact of_commissioning hc rfl rfl

/-- GO LIVE changes the part state alone, and no request is executed while a power-up load runs (R157, R163). -/
theorem goLive {s : State} (hl : s.loader.activity ≠ .powerUpLoad) : Steady s s.answerGoLive.state := by
  unfold State.answerGoLive
  split
  · exact refl s
  · split
    · exact refl s
    · exact { pending := rfl, loads := fun _ h => absurd h hl, live := fun _ _ => ⟨rfl, rfl, rfl, rfl, rfl, rfl, rfl, rfl⟩ }

/-- Every request executed outside a power-up load. -/
theorem answer {s : State} (hl : s.loader.activity ≠ .powerUpLoad) (i : Instr) : Steady s (s.answer i).state := by
  cases i with
  | readBody station position => exact readBody ..
  | readTable bank table first count => exact readTable ..
  | readGun first count => exact readGun ..
  | readCounters clear => exact readCounters ..
  | writeTable bank table first count records => exact writeTable ..
  | writeBlock bank r1 r2 c1 c2 form cells => exact writeBlock ..
  | clearBank bank => exact clearBank ..
  | copyBank => exact copyBank s
  | swap => exact swap s
  | setStation station mode dry limit => exact setStation ..
  | setFaultModes station pairs => exact setFaultModes ..
  | setHoldScope scope => exact setHoldScope ..
  | clearStation station option => exact clearStation ..
  | withdrawBody bodyId station => exact withdrawBody ..
  | setGun slot dress hard ceiling => exact setGun ..
  | setWear slot wear => exact onGun s slot fun _ => beside rfl id
  | resetWear slot => exact onGun s slot fun _ => beside rfl id
  | clearEvents mask => exact clearEvents ..
  | setEventEnable enables => exact setEventEnable ..
  | setMirror channel option trigger mask destination form count => exact setMirror ..
  | configure protocolType own controller tracker stationCount slotCounts robotNodes => exact configure ..
  | goLive => exact goLive hl
  | storeImage => exact storeImage s
  | loadImage => exact loadImage s
  | _ => exact refl s

theorem replied (s : State) (e : RequestEntry) (r : ResultCode) (data : List Octet) : Steady s (s.replied e r data) :=
  beside rfl id

theorem runRequest (s : State) (i : Instr) : Steady s (s.runRequest i (·.answer i)) := by
  by_cases h : ∃ e, s.executes i e
  · obtain ⟨e, he⟩ := h
    have ⟨_, hl, _⟩ := he
    rw [runRequest_of_executes he]
    exact after (replied ..) (answer hl i)
  · rw [runRequest_of_not_executes (not_exists.1 h)]
    exact refl s

/-! ## Every command -/

/-- The effect of every command but a power-up reset. -/
theorem effect {i : Instr} (hi : i ≠ .powerUpReset) (s : State) : Steady s (Machine.effect i s) := by
  cases i with
  | powerUpReset => exact absurd rfl hi
  | powerUpLoadEnd answers => exact endPowerUpLoad s answers
  | linkUp port => exact setLink s port true
  | linkDown port => exact setLink s port false
  | frameReceive port good frame => exact receiveFrame s port good frame
  | announce source bodyId station origin style options variant =>
    exact fromSource _ _ _ _ (take := (·.takeAnnounce ..)) (takeAnnounce ..)
  | withdraw source bodyId station => exact fromSource _ _ _ _ (take := (·.takeWithdraw ..)) (takeWithdraw ..)
  | request source number code params => exact fromSource _ _ _ _ (take := (·.takeRequest ..)) (takeRequest ..)
  | ready source tag verdict reason program =>
    exact fromSource _ _ _ _ (take := fun s => s.forRobot ..) (forRobot _ _ fun g => takeReady ..)
  | done source tag spots quality dressed =>
    exact fromSource _ _ _ _ (take := fun s => s.forRobot ..) (forRobot _ _ fun g => takeDone ..)
  | readyTimeout slot => exact of_dispatched (.readyExpires ..)
  | cycleTimeout slot => exact of_dispatched (.cycleExpires ..)
  | selectTransmit => exact selectTransmit s
  | cancelTransmit => exact cancelTransmit s
  | releaseTransmit => exact releaseTransmit s
  | replyTransmit => exact replyTransmit s
  | noticeTransmit => exact noticeTransmit s
  | copyTransmit => exact copyTransmit s
  | forwardTransmit port => exact forwardTransmit s port
  | copyBankComplete => exact completeCopy s
  | validationEnd => exact endValidation s
  | storeImageEnd confirmed => exact endStore s confirmed
  | loadImageEnd answers => exact endLoad s answers
  | _ =>
    rw [effect_request rfl]
    exact runRequest s _

end Steady

/-- Every command leaves the queue of commands, a power-up reset too (R185). -/
theorem effect_pending (i : Instr) (s : State) : (effect i s).pending = s.pending := by
  by_cases hi : i = .powerUpReset
  · subst hi
    rfl
  · exact (Steady.effect hi s).pending

/-- After every command a power-up load runs only in COMMISSIONING: a power-up reset begins it there (R185). -/
theorem effect_loadsInCommissioning (i : Instr) {s : State} (h : s.loadsInCommissioning) :
    (effect i s).loadsInCommissioning := by
  by_cases hi : i = .powerUpReset
  · subst hi
    exact fun _ => rfl
  · exact (Steady.effect hi s).loads h

end Sys2Proof.Machine

section

open Sys2Proof Sys2Proof.Machine

/-- Settles O11: every operation but a power-up reset is `Steady`, and that reset begins its load in COMMISSIONING. -/
theorem livePartKeepsItsConfiguration : Obligations.LivePartKeepsItsConfiguration := by
  intro s t hs hstep
  rcases step_cases hstep with ⟨-, rfl⟩ | ⟨c, rest, hp, rfl⟩
  · exact ⟨(Steady.tick s).loads hs, fun hl _ => (Steady.tick s).live hs hl⟩
  · have noticed := Steady.settleNotice (s.withPending rest) (effect c (s.withPending rest))
    refine ⟨noticed.loads (effect_loadsInCommissioning c hs), fun hl hne => ?_⟩
    have hc : c ≠ .powerUpReset := fun h => hne (by rw [hp, h]; rfl)
    exact (noticed.after (Steady.effect hc _)).live hs hl

/-- Settles O3: a command answers its effect with the NOTICE (`exec_eq`), and neither changes the queue of commands. -/
theorem everyCommandLeavesTheQueue : Obligations.EveryCommandLeavesTheQueue := fun c s =>
  ⟨_, exec_eq c s, (Steady.settleNotice _ _).pending.trans (effect_pending c s)⟩

end
end

section
/-! GO LIVE (R163) and CONFIGURE (R162): its checks, and what an accepted shape makes of nodes, tag states and waiting CANCELs. -/

namespace Sys2Proof.Machine

/-! ## The slots of a shape (R162) -/

section Shaped

variable {x : Shape}

theorem Shape.counts_eq (x : Shape) (st : StationId) :
    x.counts[st] = if st.val < x.stationCount then x.slotCounts.getD st.val 0 else 0 := by
  simp [Shape.counts, tabulate]

theorem Shape.nodes_eq (x : Shape) (g : SlotId) :
    x.nodes[g] = if (positionOf g).val < x.counts[stationOf g] then
      x.robotNodes[(x.slotCounts.take (stationOf g).val).sum + (positionOf g).val]? else none := by
  simp [Shape.nodes, tabulate]

/-- A station that a shape leaves unconfigured has no slots. -/
theorem State.slotConfigured_shaped (s : State) (x : Shape) (g : SlotId) :
    (s.shaped x).slotConfigured g = true ↔ (positionOf g).val < x.counts[stationOf g] := by
  have hc : (s.shaped x).slotConfigured g = true ↔
      (stationOf g).val < x.stationCount ∧ (positionOf g).val < x.counts[stationOf g] := by
    simp [State.slotConfigured, State.shaped]
  rw [hc, and_iff_right_iff_imp, Shape.counts_eq]
  intro h
  by_contra hn
  rw [if_neg hn] at h
  exact Nat.not_lt_zero _ h

/-- The robot node of a slot is the shape's, configured or not. -/
theorem State.robotNode?_shaped (s : State) (x : Shape) (g : SlotId) : (s.shaped x).robotNode? g = x.nodes[g] := by
  unfold State.robotNode?
  split
  · rfl
  · next h => rw [Shape.nodes_eq, if_neg (mt (s.slotConfigured_shaped x g).2 h)]

/-- The slots before a station and those of the station itself are among all. -/
theorem sum_take_add_getD_le (l : List Nat) (i : Nat) : (l.take i).sum + l.getD i 0 ≤ l.sum := by
  have h : (l.take i).sum + (l.drop i).sum = l.sum := List.sum_take_add_sum_drop l i
  cases hi : l.drop i with
  | nil =>
    have : l.getD i 0 = 0 := by simp [List.getD_eq_getElem?_getD, List.getElem?_eq_none (List.drop_eq_nil_iff.1 hi)]
    omega
  | cons a rest =>
    have : l.getD i 0 = a := by
      rw [List.getD_eq_getElem?_getD, ← List.head?_drop, hi]
      rfl
    rw [hi, List.sum_cons] at h
    omega

/-- Each slot that a sound shape configures has a robot node: the nodes are as many as the slots. -/
theorem Shape.isSome_nodes (h : x.Sound) (g : SlotId) :
    x.nodes[g].isSome = true ↔ (positionOf g).val < x.counts[stationOf g] := by
  obtain ⟨-, -, -, -, hr, -⟩ := h
  rw [Shape.nodes_eq]
  split
  · next hp =>
    have hsum := sum_take_add_getD_le x.slotCounts (stationOf g).val
    have hc : x.counts[stationOf g] ≤ x.slotCounts.getD (stationOf g).val 0 := by
      rw [Shape.counts_eq]
      split <;> omega
    have hlt : (x.slotCounts.take (stationOf g).val).sum + (positionOf g).val < x.robotNodes.length := by omega
    exact iff_of_true (by rw [List.getElem?_eq_getElem hlt]; rfl) hp
  · next hp => exact iff_of_false Bool.false_ne_true hp

/-- A slot keeps its tag state and its CANCEL exactly where it stays configured with the same robot node. -/
theorem State.keptByShape_iff (s : State) (h : x.Sound) (g : SlotId) :
    (x.nodes[g].isSome && x.nodes[g] == s.robotNode? g) = true ↔
      (s.shaped x).slotConfigured g = true ∧ (s.shaped x).robotNode? g = s.robotNode? g := by
  rw [Bool.and_eq_true, beq_iff_eq, Shape.isSome_nodes h, State.slotConfigured_shaped, State.robotNode?_shaped]

theorem State.tagState_shaped (s : State) (h : x.Sound) (g : SlotId) : (s.shaped x).tagState g =
    if (s.shaped x).slotConfigured g = true ∧ (s.shaped x).robotNode? g = s.robotNode? g then s.tagState g
    else ⟨1, 0, 0, false, none, none⟩ := by
  have tag : (s.shaped x).tagState g =
      if (x.nodes[g].isSome && x.nodes[g] == s.robotNode? g) = true then s.tagState g else ⟨1, 0, 0, false, none, none⟩ :=
    Vector.getElem_ofFn _
  rw [tag]
  exact if_congr (s.keptByShape_iff h g) rfl rfl

theorem State.mem_cellOwn_shaped (s : State) (h : x.Sound) (y : CellTelegram) : y ∈ (s.shaped x).ports.cellOwn ↔
    y ∈ s.ports.cellOwn ∧ ((∃ content, y.body = .select content) ∨
      ((s.shaped x).slotConfigured y.slot = true ∧ (s.shaped x).robotNode? y.slot = s.robotNode? y.slot)) := by
  rw [← s.keptByShape_iff h]
  refine List.mem_filter.trans (and_congr_right fun _ => ?_)
  cases y.body <;> simp

end Shaped

/-! ## The checks of CONFIGURE (R162) -/

/-- Checks 2 and 3 of CONFIGURE, on the operands. -/
theorem sound_shapeOf_iff (p : BitVec 16) (own ctl trk : Node) (n : Octet) (counts : List Octet) (robots : List Node) :
    let nodes := own :: ctl :: ((if trk = 0 then [] else [trk]) ++ robots)
    (shapeOf p own ctl trk n counts robots).Sound ↔
      ¬(n.toNat < 1 ∨ 4 < n.toNat ∨ counts.length ≠ n.toNat ∨ (∃ y ∈ counts, y.toNat < 1 ∨ 8 < y.toNat) ∨
        robots.length ≠ (counts.map BitVec.toNat).sum ∨ p.toNat < 0x0600 ∨ ∃ y ∈ nodes, y = 0 ∨ y = 65535) ∧ nodes.Nodup := by
  intro nodes
  have ht : (if trk = 0 then none else some trk : Option Node).toList = if trk = 0 then [] else [trk] := by split <;> rfl
  have hn : own :: ctl :: ((shapeOf p own ctl trk n counts robots).tracker.toList ++ robots) = nodes :=
    congrArg (fun l => own :: ctl :: (l ++ robots)) ht
  have hsound : (shapeOf p own ctl trk n counts robots).Sound ↔
      1 ≤ n.toNat ∧ n.toNat ≤ 4 ∧ (counts.map BitVec.toNat).length = n.toNat ∧
        (∀ y ∈ counts.map BitVec.toNat, 1 ≤ y ∧ y ≤ 8) ∧ robots.length = (counts.map BitVec.toNat).sum ∧
        0x0600 ≤ p.toNat ∧ (∀ y ∈ nodes, y ≠ 0 ∧ y ≠ 65535) ∧ nodes.Nodup := by
    rw [← hn]
    rfl
  rw [hsound]
  simp only [not_or, not_exists, not_and, not_lt, not_not, List.length_map, List.forall_mem_map, and_assoc, ne_eq]

/-- Each station has the slot count that its place in the list gives. -/
theorem counts_shapeOf {p : BitVec 16} {own ctl trk : Node} {n : Octet} {counts : List Octet} {robots : List Node}
    (h : (shapeOf p own ctl trk n counts robots).Sound) (st : StationId) :
    (shapeOf p own ctl trk n counts robots).counts[st] = ((counts[st.val]?).map BitVec.toNat).getD 0 := by
  obtain ⟨-, -, hl, -⟩ := h
  replace hl : counts.length = n.toNat := (List.length_map ..).symm.trans hl
  have hc : (shapeOf p own ctl trk n counts robots).counts[st] =
      if st.val < n.toNat then (counts.map BitVec.toNat).getD st.val 0 else 0 := Shape.counts_eq _ st
  rw [hc, List.getD_eq_getElem?_getD, List.getElem?_map]
  split
  · rfl
  · next hn => rw [List.getElem?_eq_none (by omega)]; rfl

theorem Shape.unsound_iff (x : Shape) : (!x.inRange || !x.distinct) = true ↔ ¬x.Sound := by
  rw [← Bool.not_and, Bool.not_eq_true', ← x.sound_iff, Bool.not_eq_true]

section Checks

variable {s : State} {x : Shape}

theorem State.configureRefusal_of_live (hl : s.agent.partState = .live) : s.configureRefusal x = some .notPermitted :=
  if_pos hl

theorem State.configureRefusal_of_unsound (hc : s.agent.partState = .commissioning) (h : ¬x.Sound) :
    s.configureRefusal x = some .badParameter := by
  rw [State.configureRefusal, if_neg (by rw [hc]; decide), if_pos (x.unsound_iff.2 h)]

theorem State.configureRefusal_of_sound (hc : s.agent.partState = .commissioning) (h : x.Sound) : s.configureRefusal x =
    if s.quiet = false then some .wrongState else if s.running .loadImage = true then some .busy else none := by
  rw [State.configureRefusal, if_neg (by rw [hc]; decide), if_neg fun hu => x.unsound_iff.1 hu h]
  simp only [Bool.not_eq_true']

theorem State.answerConfigure_refused {r : ResultCode} (h : s.configureRefusal x = some r) :
    s.answerConfigure x = ⟨s, r, []⟩ := by
  rw [State.answerConfigure, h]
  rfl

theorem State.answerConfigure_accepted (h : s.configureRefusal x = none) : s.answerConfigure x = ⟨s.shaped x, .done, []⟩ := by
  rw [State.answerConfigure, h, ← State.applyShape_eq]
  rfl

end Checks

end Sys2Proof.Machine

section

open Sys2Proof Sys2Proof.Machine

/-- Settles O60, check by check. -/
theorem goLiveSetsThePartLive : Obligations.GoLiveSetsThePartLive := by
  intro s e h
  split_ifs with hlive hwrong
  · exact event_of_executes_refused h (if_pos hlive)
  · exact event_of_executes_refused h ((if_neg hlive).trans (if_pos hwrong))
  · exact event_answer h ((if_neg hlive).trans (if_neg hwrong)) rfl rfl

/-- Settles O59: the checks in their order (`State.configureRefusal`), then the shape slot by slot, by its counts and nodes. -/
theorem configureWritesTheShape : Obligations.ConfigureWritesTheShape := by
  intro s e p own ctl trk n counts robots h x nodes outOfRange
  have sound : x.Sound ↔ ¬outOfRange ∧ nodes.Nodup := sound_shapeOf_iff p own ctl trk n counts robots
  have refused : ∀ r, s.configureRefusal x = some r →
      exec (.configure p own ctl trk n counts robots) s = .next (s.replied e r []) :=
    fun r hr => event_of_executes_refused h (State.answerConfigure_refused hr)
  refine ⟨fun hl => refused _ (State.configureRefusal_of_live hl), fun hc hu => refused _ ?_, fun hc hr hn => ?_⟩
  · refine State.configureRefusal_of_unsound hc fun hx => ?_
    obtain ⟨hr, hn⟩ := sound.1 hx
    exact hu.elim hr (absurd hn)
  · have hx : x.Sound := sound.2 ⟨hr, hn⟩
    have checked := State.configureRefusal_of_sound hc hx
    refine ⟨fun hw => refused _ ?_, fun hq hb => refused _ ?_, fun hq hb => ?_⟩
    · rw [checked, if_pos]
      rw [Bool.eq_false_iff]
      intro hq
      obtain ⟨st, hst⟩ := hw
      obtain ⟨h1, h2⟩ := s.quiet_iff.1 hq st
      exact hst.elim (absurd h1) (absurd h2)
    · rw [checked, s.quiet_iff.2 hq, if_neg (by decide), if_pos hb]
    · have accepted : s.configureRefusal x = none := by
        rw [checked, s.quiet_iff.2 hq, if_neg (by decide), if_neg (by rw [hb]; decide)]
      refine ⟨event_answer h (State.answerConfigure_accepted accepted) rfl rfl, rfl, rfl, fun st => ?_, fun g => ?_, fun g => ?_,
        s.tagState_shaped hx, s.mem_cellOwn_shaped hx, List.filter_sublist, rfl, rfl⟩
      · exact counts_shapeOf hx st
      · refine (Shape.nodes_eq x g).trans (if_congr (s.slotConfigured_shaped x g).symm ?_ rfl)
        rw [List.map_take]
        rfl
      · exact (s.slotConfigured_shaped x g).trans (Shape.isSome_nodes hx g).symm

end
end

section
/-! READ COUNTERS (R167, R175), the counters' saturation (R175), and the bits of the Summary Octet (R160). -/

namespace Sys2Proof.Octets

/-- What bits given from place `k` upward weigh; an octet of bits is the weight from place 0. -/
def bitsWeight (k : Nat) (bits : List Bool) : Nat := ((bits.zipIdx k).map fun b => if b.1 then 2 ^ b.2 else 0).sum

theorem bitsWeight_cons (k : Nat) (b : Bool) (rest : List Bool) :
    bitsWeight k (b :: rest) = (if b then 2 ^ k else 0) + bitsWeight (k + 1) rest := by
  rw [bitsWeight, List.zipIdx_cons, List.map_cons, List.sum_cons, bitsWeight]

theorem bitsWeight_succ (k : Nat) (bits : List Bool) : bitsWeight (k + 1) bits = 2 * bitsWeight k bits := by
  induction bits generalizing k with
  | nil => rfl
  | cons b rest ih =>
    rw [bitsWeight_cons, bitsWeight_cons, ih, Nat.mul_add, Nat.pow_succ']
    cases b <;> rfl

theorem testBit_bitsWeight (bits : List Bool) (i : Nat) : (bitsWeight 0 bits).testBit i = bits.getD i false := by
  induction bits generalizing i with
  | nil => exact Nat.zero_testBit i
  | cons b rest ih =>
    rw [bitsWeight_cons, bitsWeight_succ]
    cases i with
    | zero => cases b <;> simp [Nat.testBit_zero]
    | succ i =>
      have half : ((if b then 2 ^ 0 else 0) + 2 * bitsWeight 0 rest) / 2 = bitsWeight 0 rest := by
        cases b
        · simp
        · simp; omega
      rw [Nat.testBit_succ, half, ih, List.getD_cons_succ]

/-- The bits of an octet read back. -/
theorem getLsbD_octetOfBits (bits : List Bool) {i : Nat} (hi : i < 8) : (octetOfBits bits).getLsbD i = bits.getD i false := by
  have weight : octetOfBits bits = BitVec.ofNat 8 (bitsWeight 0 bits) := rfl
  rw [weight, BitVec.getLsbD_ofNat, testBit_bitsWeight, decide_eq_true hi, Bool.true_and]

end Sys2Proof.Octets

namespace Sys2Proof.Machine

open Octets

/-! ## The Summary Octet (R160) -/

theorem any_allStations (p : StationId → Bool) : allStations.any p = true ↔ ∃ st, p st = true := by
  have all : ∀ st : StationId, st ∈ allStations := by decide
  simp [List.any_eq_true, all]

theorem any_allSlots (p : SlotId → Bool) : allSlots.any p = true ↔ ∃ g, p g = true := by
  have all : ∀ g : SlotId, g ∈ allSlots := by decide
  simp [List.any_eq_true, all]

/-- Two vectors of bits have a bit in common exactly where their meet is not empty. -/
theorem and_ne_zero_iff {w : Nat} (x y : BitVec w) :
    (x &&& y) ≠ 0 ↔ ∃ i : Fin w, x.getLsbD i = true ∧ y.getLsbD i = true := by
  rw [← not_iff_not, not_ne_iff, not_exists]
  constructor
  · intro h i
    rw [← Bool.and_eq_true, ← BitVec.getLsbD_and, h]
    simp
  · intro h
    refine BitVec.eq_of_getLsbD_eq fun i hi => ?_
    rw [BitVec.getLsbD_and, BitVec.ofNat_eq_ofNat, BitVec.getLsbD_zero, Bool.eq_false_iff, Ne, Bool.and_eq_true]
    exact h ⟨i, hi⟩

/-- The eight bits of the Summary Octet, bit 0 first. -/
theorem State.getLsbD_summary (s : State) :
    s.summary.getLsbD 0 = (allStations.any fun st => (s.station st).state == .held) ∧
    s.summary.getLsbD 1 = (allStations.any fun st => s.flag (.stationWarning st)) ∧
    s.summary.getLsbD 2 = s.sectionHold ∧
    s.summary.getLsbD 3 = (s.agent.partState == .live) ∧
    s.summary.getLsbD 4 = (s.agent.longOp.isSome || s.banks.other == .draining) ∧
    s.summary.getLsbD 5 = s.flag .imageFault ∧
    s.summary.getLsbD 6 = s.anyWearUnknown ∧
    s.summary.getLsbD 7 = ((s.events.flags &&& s.events.enables) != 0) := by
  have bit : ∀ i, i < 8 → s.summary.getLsbD i = _ := fun i => getLsbD_octetOfBits _
  exact ⟨bit 0 (by decide), bit 1 (by decide), bit 2 (by decide), bit 3 (by decide), bit 4 (by decide), bit 5 (by decide),
    bit 6 (by decide), bit 7 (by decide)⟩

theorem State.summary_congr {s t : State} (hs : ∀ st, (t.station st).state = (s.station st).state)
    (hf : t.events.flags = s.events.flags) (he : t.events.enables = s.events.enables) (hscope : t.holdScope = s.holdScope)
    (ha : t.agent = s.agent) (hb : t.banks.other = s.banks.other) (hw : t.anyWearUnknown = s.anyWearUnknown) :
    t.summary = s.summary := by
  simp only [State.summary, State.flag, State.sectionHold, hs, hf, he, hscope, ha, hb, hw]

/-! ## READ COUNTERS (R167, R175) -/

theorem mapVector_eq {α β : Type} {n : Nat} (f : α → β) (v : Vector α n) : mapVector f v = v.map f := by
  ext i hi
  simp [mapVector]

theorem bump_eq_min {n : Nat} (h : n ≤ 65535) : bump n = min (n + 1) 65535 := by
  unfold bump
  split <;> omega

theorem State.counterOctets_eq (s : State) : s.counterOctets =
    ((List.finRange 4).flatMap fun st => (s.station st).counters.octets) ++ s.events.counterOctets ++
      (List.finRange 8).flatMap fun c =>
        [if s.channels[c].armed = true then 1 else 0] ++ nat1 s.channels[c].remaining ++ nat2 s.channels[c].copyLost := by
  have hstations : allStations = List.finRange 4 := by decide
  have hchannels : allChannels = List.finRange 8 := by decide
  simp only [State.counterOctets, Channel.counterOctets, hstations, hchannels, flag1_eq]

section Cleared

variable (s : State)

theorem State.clearCounters_eq : s.clearCounters =
    { s with
      tracker := { s.tracker with
        stations := s.tracker.stations.map fun x => { x with counters := ⟨0, 0, 0, 0, 0, 0⟩ } }
      events := { s.events with
        guardDrops := 0, frameErrors := 0, forwardDropsToCell := 0, forwardDropsToUplink := 0, requestDrops := 0,
        refusals := 0 }
      channels := s.channels.map fun c => { c with copyLost := 0 } } := by
  unfold State.clearCounters
  rw [mapVector_eq, mapVector_eq]
  rfl

/-- No condition of the Summary Octet is a counter. -/
theorem State.summary_clearCounters : s.clearCounters.summary = s.summary := by
  have state : ∀ st, (s.clearCounters.station st).state = (s.station st).state := fun st => by
    simp [State.clearCounters, State.station, mapVector]
  exact State.summary_congr state rfl rfl rfl rfl rfl rfl

end Cleared

section Answers

variable (s : State) {clear : Octet}

theorem State.answerReadCounters_undefined (h : 1 < clear.toNat) : s.answerReadCounters clear = ⟨s, .badParameter, []⟩ := by
  rw [State.answerReadCounters, flagOf?_eq_none.2 h]
  rfl

theorem State.answerReadCounters_keep : s.answerReadCounters 0 = ⟨s, .done, s.counterOctets⟩ := rfl

theorem State.answerReadCounters_clear : s.answerReadCounters 1 = ⟨s.clearCounters, .done, s.counterOctets⟩ := rfl

theorem State.answerReadCounters_events : (s.answerReadCounters clear).state.events.flags = s.events.flags ∧
    (s.answerReadCounters clear).state.events.enables = s.events.enables := by
  unfold State.answerReadCounters
  split
  · exact ⟨rfl, rfl⟩
  · split <;> exact ⟨rfl, rfl⟩

end Answers

end Sys2Proof.Machine

section

open Sys2Proof Sys2Proof.Machine Sys2Proof.Octets

/-- Settles O38: the layout, the Summary Octet bit by bit, saturation, and READ COUNTERS by its option. -/
theorem readCountersClearsOnRequest : Obligations.ReadCountersClearsOnRequest := by
  refine ⟨fun s => ?_, fun s => ?_, fun n => bump_eq_min, fun s e clear h => ?_⟩
  · rw [State.counterOctets_eq]
    simp only [Events.counterOctets, List.append_assoc]
    rfl
  · obtain ⟨b0, b1, b2, b3, b4, b5, b6, b7⟩ := s.getLsbD_summary
    rw [b0, b1, b2, b3, b4, b5, b6, b7]
    refine ⟨?_, any_allStations _, ?_, beq_iff_eq, ?_, Iff.rfl, ?_, ?_⟩
    · simp only [any_allStations, beq_iff_eq]
    · simp only [State.sectionHold, Bool.and_eq_true, any_allStations, beq_iff_eq]
    · simp only [Bool.or_eq_true, Option.isSome_iff_ne_none, beq_iff_eq]
    · simp only [State.anyWearUnknown, any_allSlots, Bool.and_eq_true]
    · exact bne_iff_ne.trans (and_ne_zero_iff _ _)
  · obtain ⟨hf, he⟩ := s.answerReadCounters_events (clear := clear)
    refine ⟨_, event_of_executes_quiet h hf he, fun hu => ?_, fun h0 => ?_, fun h1 => ?_⟩
    · rw [s.answerReadCounters_undefined hu]
    · subst h0
      rw [s.answerReadCounters_keep]
    · subst h1
      rw [s.answerReadCounters_clear]
      refine ⟨by rw [State.clearCounters_eq], ?_⟩
      rw [← s.summary_clearCounters]
      rfl

end
end

section
/-! The NOTICE at the end of an event (R152, R171): due exactly where a flag is set and enabled that was not both before. -/

namespace Sys2Proof.Machine

theorem noticeDue_iff {before after : Events} : noticeDue before after = true ↔
    ∃ i : Fin 29, after.flags.getLsbD i = true ∧ after.enables.getLsbD i = true ∧
      ¬(before.flags.getLsbD i = true ∧ before.enables.getLsbD i = true) := by
  refine bne_iff_ne.trans ((and_ne_zero_iff _ _).trans (exists_congr fun i => ?_))
  rw [BitVec.getLsbD_and, BitVec.getLsbD_not, BitVec.getLsbD_and, decide_eq_true i.isLt]
  simp only [Bool.true_and, Bool.not_eq_true', ← Bool.not_eq_true, Bool.and_eq_true, and_assoc]

theorem settleNotice_of_due {before after : State} (hdue : noticeDue before.events after.events = true)
    (hnone : after.events.noticePending = false) : settleNotice before after =
      { after with
        ports := { after.ports with uplinkOwn := after.ports.uplinkOwn ++ [.notice] }
        events := { after.events with noticePending := true } } := by
  rw [settleNotice, hdue, hnone]
  rfl

/-- R171: one NOTICE waits at a time. -/
theorem settleNotice_of_pending {before after : State} (h : after.events.noticePending = true) :
    settleNotice before after = after := by
  rw [settleNotice, h, Bool.not_true, Bool.and_false]
  rfl

end Sys2Proof.Machine

section

open Sys2Proof Sys2Proof.Machine

/-- Settles O34: `noticeDue_iff`, with the marker clear and set. -/
theorem noticeIsQueuedOnceAtTheBack : Obligations.NoticeIsQueuedOnceAtTheBack := by
  intro before after risen
  have hdue : noticeDue before.events after.events = true ↔ risen := noticeDue_iff
  refine ⟨fun hrisen => settleNotice_of_due (hdue.2 hrisen), ?_⟩
  rintro (hstill | hpending)
  · exact settleNotice_of_not_due (Bool.eq_false_iff.2 (mt hdue.1 hstill))
  · exact settleNotice_of_pending hpending

end
end

section
/-! CLEAR EVENTS and SET EVENT ENABLE (R172, R173): the masks that are refused, and what the others write and answer. -/

namespace Sys2Proof.Machine

/-- An index above 28 is a bit at or above 2^29. -/
theorem namesUndefinedFlag_iff {mask : BitVec 32} : namesUndefinedFlag mask = true ↔ 2 ^ 29 ≤ mask.toNat := by
  have top : (mask.extractLsb' 29 3).toNat = mask.toNat / 2 ^ 29 % 2 ^ 3 := by
    rw [BitVec.extractLsb'_toNat, Nat.shiftRight_eq_div_pow]
  rw [namesUndefinedFlag, bne_iff_ne, Ne, ← BitVec.toNat_inj, top]
  have := mask.isLt
  change ¬_ = 0 ↔ _
  omega

/-- A mask that names defined flags alone loses nothing in 29 bits. -/
theorem flagOctets_setWidth {mask : BitVec 32} (h : mask.toNat < 2 ^ 29) :
    flagOctets (mask.setWidth 29) = Octets.be4 mask := by
  have kept : (mask.setWidth 29).setWidth 32 = mask := by
    apply BitVec.eq_of_toNat_eq
    rw [BitVec.toNat_setWidth, BitVec.toNat_setWidth, Nat.mod_eq_of_lt h, Nat.mod_eq_of_lt mask.isLt]
  rw [flagOctets, kept]

/-- Flags that are only cleared call for no NOTICE. -/
theorem noticeDue_of_cleared {before after : Events} {kept : BitVec 29} (hf : after.flags = before.flags &&& kept)
    (he : after.enables = before.enables) : noticeDue before after = false := by
  refine noticeDue_eq_false fun i hset hen => ⟨?_, he ▸ hen⟩
  rw [hf, BitVec.getLsbD_and, Bool.and_eq_true] at hset
  exact hset.1

section Answers

variable (s : State) {mask : BitVec 32}

theorem State.answerClearEvents_undefined (h : 2 ^ 29 ≤ mask.toNat) : s.answerClearEvents mask = ⟨s, .badParameter, []⟩ :=
  if_pos (namesUndefinedFlag_iff.2 h)

theorem State.answerClearEvents_defined (h : mask.toNat < 2 ^ 29) : s.answerClearEvents mask =
    ⟨{ s with events := { s.events with flags := s.events.flags &&& ~~~(mask.setWidth 29) } }, .done,
      Octets.be4 (s.events.flags.setWidth 32) ++ Octets.be4 (s.events.enables.setWidth 32)⟩ :=
  if_neg (mt namesUndefinedFlag_iff.1 (Nat.not_le.2 h))

theorem State.answerSetEventEnable_undefined (h : 2 ^ 29 ≤ mask.toNat) :
    s.answerSetEventEnable mask = ⟨s, .badParameter, []⟩ :=
  if_pos (namesUndefinedFlag_iff.2 h)

theorem State.answerSetEventEnable_defined (h : mask.toNat < 2 ^ 29) : s.answerSetEventEnable mask =
    ⟨{ s with events := { s.events with enables := mask.setWidth 29 } }, .done, Octets.be4 mask⟩ := by
  rw [← flagOctets_setWidth h]
  exact if_neg (mt namesUndefinedFlag_iff.1 (Nat.not_le.2 h))

end Answers

end Sys2Proof.Machine

section

open Sys2Proof Sys2Proof.Machine

/-- Settles O56: clearing flags calls for no NOTICE; enabling set ones may. -/
theorem eventRequestsClearAndEnable : Obligations.EventRequestsClearAndEnable := by
  intro s e mask
  refine ⟨fun h => ⟨fun hu => ?_, fun hd => ?_⟩, fun h => ⟨fun hu => ?_, fun hd => ?_⟩⟩
  · exact event_of_executes_refused h (s.answerClearEvents_undefined hu)
  · refine (event_answer_noticed h (s.answerClearEvents_defined hd)).trans (congrArg _ ?_)
    exact settleNotice_of_not_due (noticeDue_of_cleared rfl rfl)
  · exact event_of_executes_refused h (s.answerSetEventEnable_undefined hu)
  · exact event_answer_noticed h (s.answerSetEventEnable_defined hd)

end
end

section
/-! SET MIRROR (R177): its operands, the requests it refuses, and what ARM and DISARM write and answer. -/

namespace Sys2Proof.Machine

open Octets

/-! ## Operands (R192) -/

theorem toNat_ofNat_channel (c : ChannelId) : (BitVec.ofNat 8 c.val).toNat = c.val := by
  rw [BitVec.toNat_ofNat]
  omega

theorem channelOf?_eq_none {o : Octet} : channelOf? o = none ↔ 7 < o.toNat := by
  unfold channelOf?
  split <;> simp <;> omega

theorem triggerOf?_eq_none {o : Octet} : triggerOf? o = none ↔ 2 < o.toNat := by
  unfold triggerOf?
  match o.toNat with
  | 0 | 1 | 2 => simp
  | n + 3 => simp

theorem triggerOf?_of_code {o : Octet} {k : Trigger} (h : o.toNat = k.code) : triggerOf? o = some k := by
  rw [triggerOf?, h]
  cases k <;> rfl

/-- Form 0 gives a count above 0, form 1 CONTINUOUS. -/
theorem mirrorCountOf?_eq {form count : Octet} (h : form = 0 ∧ count ≠ 0 ∨ form = 1) :
    mirrorCountOf? form count = some (if form = 1 then none else some count.toNat) := by
  obtain ⟨rfl, hcount⟩ | rfl := h
  · exact if_neg hcount
  · rfl

theorem mirrorCountOf?_eq_none {form count : Octet} (h : form = 0 ∧ count = 0 ∨ 1 < form.toNat) :
    mirrorCountOf? form count = none := by
  obtain ⟨rfl, rfl⟩ | hform := h
  · rfl
  · unfold mirrorCountOf?
    split
    · omega
    · omega
    · rfl

/-- A station mask selects none of stations 0 to 3 where its low four bits are clear. -/
theorem setWidth_four_eq_zero {mask : Octet} : mask.setWidth 4 = 0#4 ↔ mask.toNat % 16 = 0 := by
  rw [← BitVec.toNat_inj, BitVec.toNat_setWidth]
  rfl

/-! ## Refusals and what is written (R177) -/

theorem Channel.fieldOctets_eq (x : Channel) : x.fieldOctets =
    [match x.trigger with | .release => 0 | .slotDone => 1 | .slotFault => 2, x.stationMask.setWidth 8] ++
      (match x.destination with | none => [255, 255] | some node => be2 node) ++
      (match x.count with | none => [1, 0] | some n => [0] ++ nat1 n) ++
      nat1 x.remaining ++ [if x.armed = true then 1 else 0] ++ nat2 x.copyLost := by
  have htrigger : nat1 x.trigger.code = [match x.trigger with | .release => 0 | .slotDone => 1 | .slotFault => 2] := by
    cases x.trigger <;> rfl
  rw [Channel.fieldOctets, htrigger, flag1_eq]
  rfl

section Answers

variable (s : State) {channel trigger mask form count : Octet} {destination : Node} {c : ChannelId}

/-- A SET MIRROR that fails one check of R177 is refused: neither DISARM nor ARM passes it. -/
theorem State.answerSetMirror_refused {option : Octet} (h : 7 < channel.toNat ∨ 1 < option.toNat ∨ (option = 1 ∧
      (2 < trigger.toNat ∨ mask.toNat % 16 = 0 ∨ destination = 0 ∨ destination = 65535 ∨
        destination = s.filter.ownNode ∨ (form = 0 ∧ count = 0) ∨ 1 < form.toNat))) :
    s.answerSetMirror channel option trigger mask destination form count = s.result .badParameter := by
  have hchannel {c} (hc : channelOf? channel = some c) : ¬7 < channel.toNat := by simp [← channelOf?_eq_none, hc]
  have hoption {b} (hb : flagOf? option = some b) : ¬1 < option.toNat := by simp [← flagOf?_eq_none, hb]
  unfold State.answerSetMirror
  split
  · next c hc ho =>
    obtain h | h | ⟨rfl, -⟩ := h
    · exact absurd h (hchannel hc)
    · exact absurd h (hoption ho)
    · cases ho
  · next c hc ho =>
    obtain ⟨-, h⟩ := (h.resolve_left (hchannel hc)).resolve_left (hoption ho)
    split
    · next k n hk hn =>
      refine if_pos ?_
      obtain h | h | h | h | h | h := h
      · rw [triggerOf?_eq_none.2 h] at hk
        cases hk
      · exact .inl (setWidth_four_eq_zero.2 h)
      · exact .inr (.inl (by rw [h]; rfl))
      · exact .inr (.inl (by rw [h]; rfl))
      · exact .inr (.inr h)
      · rw [mirrorCountOf?_eq_none h] at hn
        cases hn
    · rfl
  · rfl

theorem State.answerSetMirror_disarm (hc : channel.toNat = c.val) :
    s.answerSetMirror channel 0 trigger mask destination form count = s.mirrorWritten c s.channels[c].disarm := by
  rw [State.answerSetMirror, channelOf?_eq_some.2 hc]
  rfl

theorem State.answerSetMirror_arm {k : Trigger} (hc : channel.toNat = c.val) (hk : trigger.toNat = k.code)
    (hmask : mask.toNat % 16 ≠ 0) (hnode : validNode destination = true) (hown : destination ≠ s.filter.ownNode)
    (hcount : form = 0 ∧ count ≠ 0 ∨ form = 1) :
    s.answerSetMirror channel 1 trigger mask destination form count =
      s.mirrorWritten c
        (s.channels[c].arm k (mask.setWidth 4) destination (if form = 1 then none else some count.toNat)) := by
  have passed : ¬(mask.setWidth 4 = 0#4 ∨ validNode destination = false ∨ destination = s.filter.ownNode) := by
    simp [setWidth_four_eq_zero, hmask, hnode, hown]
  rw [State.answerSetMirror, channelOf?_eq_some.2 hc, triggerOf?_of_code hk, mirrorCountOf?_eq hcount]
  exact if_neg passed

end Answers

end Sys2Proof.Machine

section

open Sys2Proof Sys2Proof.Machine

/-- Settles O57: the refusals, DISARM, and ARM; the reply by `Channel.fieldOctets_eq`. -/
theorem setMirrorArmsAndDisarms : Obligations.SetMirrorArmsAndDisarms := by
  intro s e c trigger mask destination form count k fields
  have written : ∀ x, s.mirrorWritten c x = ⟨{ s with channels := s.channels.set c x }, .done, fields x⟩ := fun x => by
    rw [State.mirrorWritten, Channel.fieldOctets_eq]
    rfl
  refine ⟨fun channel option h hbad => ?_, fun h => ?_, fun h hk hmask h0 hmax hown hcount => ?_⟩
  · exact event_of_executes_refused h (s.answerSetMirror_refused hbad)
  · exact event_answer h ((s.answerSetMirror_disarm (toNat_ofNat_channel c)).trans (written _)) rfl rfl
  · have hcode : trigger.toNat = k.code := by
      obtain ⟨ht, rfl⟩ | ⟨ht, rfl⟩ | ⟨ht, rfl⟩ := hk <;> exact ht
    have ha := s.answerSetMirror_arm (toNat_ofNat_channel c) hcode hmask (validNode_iff.2 ⟨h0, hmax⟩) hown hcount
    rw [Channel.arm, apply_ite (Option.getD · 0)] at ha
    exact event_answer h (ha.trans (written _)) rfl rfl

end
end

section
/-! The end of a STORE IMAGE (R181, R186), what the flash holds behind a write that is not confirmed, and the power-up reset
(R185). -/

namespace Sys2Proof.Machine

/-! ## The flash behind a store (R181, R186) -/

/-- A store that has written every octet but the checksum. -/
theorem getD_storeWritten_all {stored : List Octet} {n : Nat} (hlen : 23 ≤ stored.length) (hn : stored.length ≤ n) (i : Nat) :
    ((storeWritten stored n)[i]?).getD 255 =
      if i < 23 then (stored[i]?).getD 255 else if i < 25 then 255 else (stored[i - 2]?).getD 255 := by
  obtain rfl | hn := Nat.eq_or_lt_of_le hn
  · rw [getD_storeWritten _ _ _ le_rfl, List.take_length]
  have header : (stored.take 23).length = 23 := List.length_take_of_le hlen
  have payload : (stored.drop 23).take (n - 23) = stored.drop 23 :=
    List.take_of_length_le (by rw [List.length_drop]; omega)
  rw [storeWritten, if_neg (by omega), payload]
  split
  · next hi => rw [List.append_assoc, List.getElem?_append_left (by omega), List.getElem?_take_of_lt hi]
  · split
    · obtain rfl | rfl : i = 23 ∨ i = 24 := by omega
      all_goals rw [List.append_assoc, List.getElem?_append_right (by omega), header]; rfl
    · rw [List.getElem?_append_right (by simp; omega), List.getElem?_drop]
      simp only [List.length_append, header, List.length_cons, List.length_nil]
      rw [show 23 + (i - (23 + (0 + 1 + 1))) = i - 2 by omega]

/-- A write that is not confirmed leaves open only the octet it was for: the header's at its position, a payload octet two further,
behind the checksum field. -/
theorem getD_storeBroken {stored : List Octet} {position i : Nat} (free : Nat) (hlen : 23 ≤ stored.length)
    (hi : i ≠ if position < 23 then position else position + 2) :
    ((storeBroken stored position free)[i]?).getD 255 =
      if i < 23 then ((stored.take position)[i]?).getD 255
      else if i < 25 then 255
      else ((stored.take position)[i - 2]?).getD 255 := by
  unfold storeBroken
  split
  · next hp =>
    have attempted : (stored.take position ++ [Config.unconfirmedOctet free]).length = position + 1 := by
      rw [List.length_append, List.length_take_of_le hp.le]
      rfl
    have confirmed : ∀ j, j ≠ position →
        (stored.take position ++ [Config.unconfirmedOctet free])[j]? = (stored.take position)[j]? := by
      grind
    rw [getD_storeWritten _ _ _ attempted.ge, List.take_of_length_le attempted.le]
    split
    · rw [confirmed i (by split at hi <;> omega)]
    · split
      · rfl
      · rw [confirmed (i - 2) (by split at hi <;> omega)]
  · next hp => rw [getD_storeWritten_all hlen (by omega), List.take_of_length_le (by omega)]

/-- The checksum field, octets 23 and 24 of an image, reads 65,535 where both are erased. -/
theorem flashRead_checksum_erased {flash : List Octet} (h : ∀ i, 23 ≤ i → i < 25 → (flash[i]?).getD 255 = 255) :
    flashRead flash 23 2 = [255, 255] := by
  rw [flashRead_eq]
  exact congrArg₂ (fun a b => [a, b]) (h 23 (by omega) (by omega)) (h 24 (by omega) (by omega))

theorem flashRead_storeWritten {stored : List Octet} {n : Nat} (hn : n ≤ stored.length) :
    flashRead (storeWritten stored n) 23 2 = [255, 255] :=
  flashRead_checksum_erased fun i hlo hhi => by rw [getD_storeWritten _ _ _ hn, if_neg (by omega), if_pos hhi]

theorem flashRead_storeBroken {stored : List Octet} {position : Nat} (free : Nat) (hlen : 23 ≤ stored.length) :
    flashRead (storeBroken stored position free) 23 2 = [255, 255] :=
  flashRead_checksum_erased fun i hlo hhi => by
    rw [getD_storeBroken free hlen (by split <;> omega), if_neg (by omega), if_pos hhi]

/-! ## STORE IMAGE ends (R186) -/

theorem State.endStore_confirmed {s : State} (h : s.running .storeImage = true) : s.endStore true = { s with
    flash := storedImage s.loader.stored s.loader.storedChecksum
    loader := Loader.start .idle
    events := { s.events with flags := s.events.flags ||| (1#29 <<< 14) }
    agent := { s.agent with longOp := none } } := by
  rw [State.endStore, if_pos h]
  rfl

theorem State.endStore_unconfirmed {s : State} (h : s.running .storeImage = true) : s.endStore false = { s with
    flash := storeBroken s.loader.stored s.loader.position s.free
    free := s.free + 1
    loader := Loader.start .idle
    events := { s.events with flags := s.events.flags ||| (1#29 <<< 13) }
    agent := { s.agent with longOp := none } } := by
  rw [State.endStore, if_pos h]
  rfl

/-! ## A state without flags -/

/-- An event that leaves no flag set calls for no NOTICE. -/
theorem settleNotice_of_no_flags {before after : State} (h : after.events.flags = 0) : settleNotice before after = after :=
  settleNotice_of_not_due (noticeDue_eq_false fun i hi => absurd hi (by simp [h]))

end Sys2Proof.Machine

section

open Sys2Proof Sys2Proof.Machine

/-- Settles O46: the two ends of a store, the flash behind one that is not confirmed octet by octet (`getD_storeBroken`), and the
millisecond of a running one (`tick_of_store`). -/
theorem storeImageEndWritesTheChecksumLast : Obligations.StoreImageEndWritesTheChecksumLast := by
  intro s stored
  refine ⟨fun hr => ⟨event_noticed (State.endStore_confirmed hr), _, event_noticed (State.endStore_unconfirmed hr), ?_⟩, ?_⟩
  · exact fun hlen => ⟨flashRead_storeBroken _ hlen, fun i hi => getD_storeBroken _ hlen hi⟩
  · exact fun hp ha hr _ =>
      ⟨_, step_of_empty hp (tick_of_store hr ha), rfl, flashRead_storeWritten (Nat.min_le_right _ _)⟩

/-- Settles O12: `State.powerUp` writes every block, and its state has no flag that could call for a NOTICE. -/
theorem powerUpResetReturnsEveryBlock : Obligations.PowerUpResetReturnsEveryBlock := fun _ =>
  (event_noticed rfl).trans (congrArg _ (settleNotice_of_no_flags rfl))

end
end

section

namespace Sys2Proof.Machine

/-- A step on a queue with a front command runs that command with the queue's rest. -/
theorem step_of_cons {s : State} {c : Instr} {rest : List Instr} (hp : s.pending = c :: rest) :
    step s = exec c (s.withPending rest) := by
  rw [step, hp]

end Sys2Proof.Machine

section

open Sys2Proof Sys2Proof.Machine

/-- Settles O1: `step_of_cons`, where what is taken off the queue is what the state was given. -/
theorem stepRunsTheFrontCommand : Obligations.StepRunsTheFrontCommand := fun _ _ _ => step_of_cons rfl

end
end
